-- ==== Sys2Proof/Word.lean ====
section
/-! DEFINITION. The widths of the spec's values (R4, R5) and the 6-byte response frame (R72). -/

namespace Sys2Proof

/-- An 8-bit value `u8` (R5): a bus byte, a device address, a mode code. -/
abbrev Byte := BitVec 8

/-- A 16-bit value `u16` (R4 `FIELD_WIDTH`): one field of a response frame. -/
abbrev Half := BitVec 16

/-- A 32-bit value `u32` (R4 `HOST_WORD`): a host register, a command word. -/
abbrev Word := BitVec 32

/-- A response frame: exactly 6 bytes, `b0` received first (R72, R58).
`b2` and `b5` are the checksum bytes of the fields `b0 b1` and `b3 b4`. -/
structure Frame where
  b0 : Byte
  b1 : Byte
  b2 : Byte
  b3 : Byte
  b4 : Byte
  b5 : Byte
deriving DecidableEq, Repr

end Sys2Proof
end

