-- ==== Sys2Proof/Machine/Checksum.lean ====
section
/-! DEFINITION. The CRC-8 checksum, the frame validator, the field extractor and the serial assembler
(41_checksum_extract.md). -/

namespace Sys2Proof.Machine

/-- One of the 8 iterations of R120: shift left, and XOR with 0x31 where bit 7 was set. -/
def crcShift (c : Byte) : Byte :=
  if c.msb then (c <<< 1) ^^^ 0x31 else c <<< 1

/-- One byte of R120: XOR it into the accumulator, then 8 iterations. -/
def crcByte (c d : Byte) : Byte :=
  Nat.repeat crcShift 8 (c ^^^ d)

/-- `crc8(d0, d1)` (R120): initial value 0xFF, `d0` first. -/
def crc8 (d0 d1 : Byte) : Byte :=
  crcByte (crcByte 0xFF d0) d1

/-- The iteration as the document words it, on an accumulator that is not masked (R121): the test reads bit 7. -/
def crcShiftUnmasked (c : Nat) : Nat :=
  if c.testBit 7 then (c <<< 1) ^^^ 0x31 else c <<< 1

/-- One byte of the unmasked form. -/
def crcByteUnmasked (c : Nat) (d : Byte) : Nat :=
  Nat.repeat crcShiftUnmasked 8 (c ^^^ d.toNat)

/-- The document's form of `crc8`: masked to 8 bits only "after processing all bytes" (R121). -/
def crc8MaskedAtEnd (d0 d1 : Byte) : Byte :=
  BitVec.ofNat 8 (crcByteUnmasked (crcByteUnmasked 0xFF d0) d1)

/-- `FrameValid(b)` (R123). -/
def frameValid (b : Frame) : Bool :=
  crc8 b.b0 b.b1 == b.b2 && crc8 b.b3 b.b4 == b.b5

/-- `Field0(b) = b[0] || b[1]` (R125, R57). -/
def field0 (b : Frame) : Half := b.b0 ++ b.b1

/-- `Field1(b) = b[3] || b[4]` (R125, R57). -/
def field1 (b : Frame) : Half := b.b3 ++ b.b4

/-- `SerialOf(b) = Field0(b) || Field1(b)` (R126). -/
def serialOf (b : Frame) : Word := field0 b ++ field1 b

end Sys2Proof.Machine
end

