-- ==== Sys2Proof/Machine/Float64.lean ====
section
/-! DEFINITION. The binary64 operations of R8: each takes the exact values of its operands, computes exactly, and
rounds once to nearest, ties to even. -/

namespace Sys2Proof.Machine

/-- A binary64 number as its IEEE encoding (`bits64`, R8). The operations below read a finite operand; the
conversion makes no other (R170, R171; log entry 18). -/
abbrev F64 := BitVec 64

/-- The 63 bits below the sign. -/
def F64.mag (x : F64) : Nat := x.toNat % (1 <<< 63)

/-- The encoding with a given sign and given lower 63 bits. -/
def F64.ofMag (neg : Bool) (mag : Nat) : F64 :=
  BitVec.ofNat 64 (bif neg then mag + 1 <<< 63 else mag)

/-- The magnitude that a finite number's lower 63 bits encode, in units of 2^-1074, the smallest subnormal:
biased exponent in the bits from 52 up, fraction below, hidden bit where the exponent is not 0. -/
def magUnits (mag : Nat) : Nat :=
  bif Nat.beq (mag >>> 52) 0 then mag
  else (mag % (1 <<< 52) + 1 <<< 52) <<< (mag >>> 52 - 1)

/-- The signed value of a finite number, in units of 2^-1074. -/
def F64.units (x : F64) : Int :=
  bif x.msb then -(magUnits x.mag : Int) else (magUnits x.mag : Int)

/-- `n / d` rounded to the nearest integer, a tie to the even one. -/
def roundQuotient (n d : Nat) : Nat :=
  bif Nat.blt d (2 * (n % d)) || (Nat.beq d (2 * (n % d)) && Nat.beq (n / d % 2) 1) then n / d + 1
  else n / d

/-- The halving widths of `floorLog2`. -/
def log2Widths : List Nat := [2048, 1024, 512, 256, 128, 64, 32, 16, 8, 4, 2, 1]

/-- `⌊log2 n⌋` for `0 < n < 2^4096`, by halving. -/
def floorLog2 : List Nat → Nat → Nat
  | [], _ => 0
  | k :: ks, n => bif Nat.ble (1 <<< k) n then k + floorLog2 ks (n >>> k) else floorLog2 ks n

/-- How many low bits of a magnitude in units of 2^-1074 lie below the 53 significant bits. -/
def droppedBits (units : Nat) : Nat :=
  floorLog2 log2Widths units - 52

/-- The lower 63 bits of the binary64 number nearest to `n / d`, ties to even (R8); past the largest finite
number, those of infinity. With `s` bits dropped, the significand `m` and the exponent `s + 1` make the encoding
`s * 2^52 + m`, and a significand that rounds up to 2^53 carries into the exponent. -/
def roundMag (n d : Nat) : Nat :=
  let s := droppedBits ((n <<< 1074) / d)
  min (s <<< 52 + roundQuotient (n <<< 1074) (d <<< s)) (0x7FF <<< 52)

/-- `f64(n)` (R8). -/
def F64.ofNat (n : Nat) : F64 := F64.ofMag false (roundMag n 1)

/-- The number with the other sign. -/
def F64.neg (x : F64) : F64 := F64.ofMag (!x.msb) x.mag

/-- `fmul` (R8). -/
def fmul (x y : F64) : F64 :=
  F64.ofMag (x.msb ^^ y.msb) (roundMag (magUnits x.mag * magUnits y.mag) (1 <<< 2148))

/-- `fdiv` (R8), for a divisor that is not zero. -/
def fdiv (x y : F64) : F64 :=
  F64.ofMag (x.msb ^^ y.msb) (roundMag (magUnits x.mag) (magUnits y.mag))

/-- `fadd` (R8): an exact sum of zero is +0.0, unless both operands are negative zeros. -/
def fadd (x y : F64) : F64 :=
  match x.units + y.units with
  | .ofNat 0 => F64.ofMag (x.msb && y.msb) 0
  | .ofNat n => F64.ofMag false (roundMag n (1 <<< 1074))
  | .negSucc n => F64.ofMag true (roundMag (n + 1) (1 <<< 1074))

/-- `x < y`, as values of finite numbers. -/
def flt (x y : F64) : Bool := decide (x.units < y.units)

end Sys2Proof.Machine
end

