-- ==== Sys2Proof/Machine/Conversion.lean ====
section
/-! DEFINITION. The conversion of the raw fields to physical units (43_conversion.md). -/

namespace Sys2Proof.Machine

/-- `TempOf(t) = fadd(-45.0, fdiv(fmul(175.0, f64(t)), 65535.0))` (R170), not clamped (R173). -/
def tempOf (t : Half) : F64 :=
  fadd (F64.ofNat 45).neg (fdiv (fmul (F64.ofNat 175) (F64.ofNat t.toNat)) (F64.ofNat 65535))

/-- `RhLin(h) = fadd(-6.0, fdiv(fmul(125.0, f64(h)), 65535.0))` (R171). -/
def rhLin (h : Half) : F64 :=
  fadd (F64.ofNat 6).neg (fdiv (fmul (F64.ofNat 125) (F64.ofNat h.toNat)) (F64.ofNat 65535))

/-- `RhOf(h)`: `RhLin(h)` clamped to [0.0, 100.0] (R171). -/
def rhOf (h : Half) : F64 :=
  if flt (rhLin h) (F64.ofNat 0) then F64.ofNat 0
  else if flt (F64.ofNat 100) (rhLin h) then F64.ofNat 100
  else rhLin h

end Sys2Proof.Machine
end

