-- ==== Sys2Proof/Config.lean ====
section
/-! DEFINITION. The implementation parameters of R4: the values the spec fixes, and the `OPEN` ones and the one
value the spec leaves undefined, as constants without a body. -/

namespace Sys2Proof.Config

/-- `DEFAULT_ADDR` (R4): the reset value of ADDR. -/
def defaultAddr : Byte := 0x44

/-- `DEFAULT_MODE` (R4): the reset value of MODE.CODE. -/
def defaultMode : Byte := 0xFD

/-- `REG_WINDOW` (R4): the size of the host register window in bytes. -/
def regWindow : Nat := 0x100

/-- `RSP_FRAME_LEN` (R4): bytes per response frame. -/
def rspFrameLen : Nat := 6

/-- The `OPEN` parameter `TICKS_PER_US` (R4, decision D10) less one. It has no body (log entry 6). -/
opaque ticksPerUsPred : Nat

/-- `TICKS_PER_US`: timer ticks per microsecond, "a positive integer" (R4), and nothing else is known of it. -/
def ticksPerUs : Nat := ticksPerUsPred + 1

/-- The `OPEN` parameter `REG_BASE` (R4, R50): where the platform places the register window (log entry 7). -/
opaque regBase : Nat

/-- `ModeDelayUs(c)` for a `c` that is no mode code: "defined only where `IsValidMode(c)` holds" (R102).
A free value; no reachable state applies it (log entry 8). -/
opaque undefinedModeDelayUs : Byte → Word

end Sys2Proof.Config
end

