-- ==== Sys2Proof/Syntax.lean ====
section
/-! DEFINITION. The instructions, one constructor per row of spec/opcode_table.json, and the transfers that
encode them: a host access to the register window (R80) or a command frame on the bus (R70). -/

namespace Sys2Proof

/-- One host access to the register window (R50, R60). `off` is the offset from `REG_BASE`: the window has
0x100 bytes, so an offset has 8 bits. `width` is the access width in bytes: any width can be tried (R52). -/
inductive Access where
  /-- `MemWrite(REG_BASE + off, width, v)`. -/
  | write (off : Byte) (width : Nat) (v : Word)
  /-- `MemRead(REG_BASE + off, width)`. -/
  | read (off : Byte) (width : Nat)
deriving DecidableEq, Repr

/-- What an instruction is encoded in: host accesses (R80: "(OFF, IMM) for `wr`, or (OFF) for `rd`"), or the
one byte of a bus command frame (R70). -/
inductive Transfer where
  | host (a : Access)
  | frame (b : Byte)
deriving DecidableEq, Repr

/-- The rows of spec/opcode_table.json, in the table's order. -/
inductive Instr where
  /-- RESET (R150): CMD word with OP = 0x1. -/
  | reset
  /-- SET_MODE (R104): CMD word with OP = 0x2; `code` is ARG = w[15:8]. -/
  | setMode (code : Byte)
  /-- READ_SERIAL (R151): CMD word with OP = 0x3. -/
  | readSerial
  /-- READ_MEASUREMENT (R152): CMD word with OP = 0x4. -/
  | readMeasurement
  /-- ILLEGAL_0 (R77): CMD word with the reserved OP = 0x0. -/
  | illegal0
  /-- ILLEGAL_5 (R77): CMD word with the reserved OP = 0x5. -/
  | illegal5
  /-- ILLEGAL_6 (R77): CMD word with the reserved OP = 0x6. -/
  | illegal6
  /-- ILLEGAL_7 (R77): CMD word with the reserved OP = 0x7. -/
  | illegal7
  /-- ILLEGAL_8 (R77): CMD word with the reserved OP = 0x8. -/
  | illegal8
  /-- ILLEGAL_9 (R77): CMD word with the reserved OP = 0x9. -/
  | illegal9
  /-- ILLEGAL_A (R77): CMD word with the reserved OP = 0xA. -/
  | illegalA
  /-- ILLEGAL_B (R77): CMD word with the reserved OP = 0xB. -/
  | illegalB
  /-- ILLEGAL_C (R77): CMD word with the reserved OP = 0xC. -/
  | illegalC
  /-- ILLEGAL_D (R77): CMD word with the reserved OP = 0xD. -/
  | illegalD
  /-- ILLEGAL_E (R77): CMD word with the reserved OP = 0xE. -/
  | illegalE
  /-- ILLEGAL_F (R77): CMD word with the reserved OP = 0xF. -/
  | illegalF
  /-- GET_MODE (R105): a word read of offset 0x0C, then a word read of offset 0x10. -/
  | getMode
  /-- SET_ADDR (R154): a word write to offset 0x08; `a` is v[7:0]. -/
  | setAddr (a : Byte)
  /-- CLEAR_OVR (R155): a word write to offset 0x04; `w1c` is v[7]. -/
  | clearOvr (w1c : Bool)
  /-- BUS_RESET (R150): the command frame 0x94. -/
  | busReset
  /-- BUS_READ_SERIAL (R151): the command frame 0x89. -/
  | busReadSerial
  /-- BUS_MEASURE_FD (R152): the command frame 0xFD, mode index 0 (high-precision no-heat). -/
  | busMeasureFD
  /-- BUS_MEASURE_F6 (R152): the command frame 0xF6, mode index 1 (medium-precision no-heat). -/
  | busMeasureF6
  /-- BUS_MEASURE_E0 (R152): the command frame 0xE0, mode index 2 (low-precision no-heat). -/
  | busMeasureE0
  /-- BUS_MEASURE_39 (R152): the command frame 0x39, mode index 3 (high-heat-1s). -/
  | busMeasure39
  /-- BUS_MEASURE_32 (R152): the command frame 0x32, mode index 4 (high-heat-100ms). -/
  | busMeasure32
  /-- BUS_MEASURE_2F (R152): the command frame 0x2F, mode index 5 (med-heat-1s). -/
  | busMeasure2F
  /-- BUS_MEASURE_24 (R152): the command frame 0x24, mode index 6 (med-heat-100ms). -/
  | busMeasure24
  /-- BUS_MEASURE_1E (R152): the command frame 0x1E, mode index 7 (low-heat-1s). -/
  | busMeasure1E
  /-- BUS_MEASURE_15 (R152): the command frame 0x15, mode index 8 (low-heat-100ms). -/
  | busMeasure15
deriving DecidableEq, Repr

end Sys2Proof
end

