-- ==== Sys2Proof/Machine/State.lean ====
section
/-! DEFINITION. The state of the block (10_state.md), the inputs the other agents of R10 give it, its outputs to
them, and the state after block reset (R43). -/

namespace Sys2Proof.Machine

/-- Why a step stops with a fault. The block itself has none: "no trap path to the host" (R52, R189). -/
inductive Fault where
  /-- Raised by `takeReadAnswer` when a valid frame arrives with CUR_OP = RESET: RESET makes no read (R150), and
  R146 gives that case no effect. No reachable state raises it. Safe (log entry 14). -/
  | resetMakesNoRead
deriving DecidableEq, Repr

/-- Why a step is refused. -/
inductive Refusal where
  /-- Raised by `exec`'s arm of an instruction that has no meaning yet. Safe. No arm raises it. -/
  | notModelled (mnemonic : String)
deriving DecidableEq, Repr

/-- `STATUS.ERR` (R27). The values 5 to 7 are never written and are no term of this type. -/
inductive ErrKind where
  | none
  | invalidArgument
  | checksumError
  | transportError
  | illegalCommand
deriving DecidableEq, Repr

/-- `STATUS.PHASE` (R30). The values 4 to 7 are never entered and are no term of this type. -/
inductive Phase where
  | idle
  | write
  | wait
  | read
deriving DecidableEq, Repr

/-- The fields of `STATUS` (R24). -/
structure Status where
  busy : Bool
  valid : Bool
  err : ErrKind
  ovr : Bool
  lastOp : BitVec 4
  phase : Phase
deriving DecidableEq, Repr

/-- A row of the mode table (R100), and the current mode as MODE (R23) and MODE_DELAY (R37) hold it. -/
structure Mode where
  code : Byte
  index : BitVec 4
  delayUs : Word
deriving DecidableEq, Repr

/-- The result registers: SERIAL (R32), RAW (R33), TEMP_LO and TEMP_HI (R34), RH_LO and RH_HI (R35). -/
structure Results where
  serial : Word
  tRaw : Half
  hRaw : Half
  tempLo : Word
  tempHi : Word
  rhLo : Word
  rhHi : Word
deriving DecidableEq, Repr

/-- The operations that use the bus: the values of CUR_OP (R38). -/
inductive BusOp where
  | reset
  | readSerial
  | readMeasurement
deriving DecidableEq, Repr

/-- The operation latches CUR_OP, CUR_ADDR, CUR_CMD and CUR_DELAY_US (R38). -/
structure Latches where
  op : BusOp
  addr : Byte
  cmd : Byte
  delayUs : Word
deriving DecidableEq, Repr

/-- `PEND`, the outstanding transport request (R41). -/
inductive Pend where
  | none
  | write
  | read
deriving DecidableEq, Repr

/-- A request the engine issues on the transport port (R58). -/
inductive Request where
  | busWrite (addr byte : Byte)
  | busRead (addr : Byte) (count : Nat)
deriving DecidableEq, Repr

/-- The transport's answer to a `BusWrite` (R58). -/
inductive WriteAnswer where
  | ok
  | transportError (info : Word)
deriving DecidableEq, Repr

/-- The transport's answer to a `BusRead` (R58). -/
inductive ReadAnswer where
  | ok (b : Frame)
  | transportError (info : Word)
deriving DecidableEq, Repr

/-- One step of an agent outside the engine (R10): what happens to the block next (log entry 1). -/
inductive Input where
  /-- The host makes one access (R60). -/
  | host (a : Access)
  /-- The transport answers a `BusWrite` (R58). -/
  | writeAnswer (a : WriteAnswer)
  /-- The transport answers a `BusRead` (R58). -/
  | readAnswer (a : ReadAnswer)
  /-- The time base ticks once (R191). -/
  | tick
  /-- The platform resets the block (R200). -/
  | blockReset
deriving DecidableEq, Repr

/-- The whole state. The fields up to `pend` are the block's; the last three are the model's own. -/
structure State where
  /-- STATUS (R24). -/
  status : Status
  /-- ADDR.ADDRESS (R22). -/
  addr : Byte
  /-- MODE.CODE, MODE.INDEX (R23) and MODE_DELAY.DELAY_US (R37). -/
  mode : Mode
  /-- SERIAL, RAW, TEMP and RH (R32 to R35). -/
  results : Results
  /-- TERR.INFO (R36). -/
  terr : Word
  /-- CUR_OP, CUR_ADDR, CUR_CMD, CUR_DELAY_US (R38). -/
  cur : Latches
  /-- TIMER (R39): "It never wraps", so it is a natural number (log entry 13). -/
  timer : Nat
  /-- RXBUF (R40). -/
  rxbuf : Frame
  /-- PEND (R41). -/
  pend : Pend
  /-- What the outside agents do, the next first: the model's own (log entry 1). -/
  inputs : List Input
  /-- The words the host has read, the latest first: the model's own (log entry 3). -/
  hostReads : List Word
  /-- The requests the engine has issued, the latest first: the model's own (log entry 4). -/
  issued : List Request
deriving DecidableEq, Repr

/-- The state after block reset (R43). The latches, TIMER and RXBUF are "unspecified" there: their values here are
the model's (log entry 5). -/
def State.reset : State where
  status := { busy := false, valid := false, err := .none, ovr := false, lastOp := 0, phase := .idle }
  addr := Config.defaultAddr
  mode := { code := Config.defaultMode, index := 0, delayUs := 10000 }
  results := { serial := 0, tRaw := 0, hRaw := 0, tempLo := 0, tempHi := 0, rhLo := 0, rhHi := 0 }
  terr := 0
  cur := { op := .reset, addr := 0, cmd := 0, delayUs := 0 }
  timer := 0
  rxbuf := { b0 := 0, b1 := 0, b2 := 0, b3 := 0, b4 := 0, b5 := 0 }
  pend := .none
  inputs := []
  hostReads := []
  issued := []

end Sys2Proof.Machine
end

