-- ==== Sys2Proof/Machine/Flags.lean ====
section
/-! DEFINITION. The STATUS word (R24) and the operations on its flags (R45). -/

namespace Sys2Proof.Machine

/-- The code of an outcome in STATUS.ERR (R27). -/
def ErrKind.code : ErrKind → BitVec 3
  | .none => 0
  | .invalidArgument => 1
  | .checksumError => 2
  | .transportError => 3
  | .illegalCommand => 4

/-- The code of a phase in STATUS.PHASE (R30). -/
def Phase.code : Phase → BitVec 3
  | .idle => 0
  | .write => 1
  | .wait => 2
  | .read => 3

/-- The 32 bits of STATUS (R24): reserved [31:15], PHASE [14:12], LAST_OP [11:8], OVR [7], ERR [6:4],
reserved [3:2], VALID [1], BUSY [0]. -/
def Status.word (st : Status) : Word :=
  0#17 ++ st.phase.code ++ st.lastOp ++ BitVec.ofBool st.ovr ++ st.err.code ++ 0#2 ++
    BitVec.ofBool st.valid ++ BitVec.ofBool st.busy

/-- The OP of a bus operation (R74, R38). -/
def BusOp.code : BusOp → BitVec 4
  | .reset => 0x1
  | .readSerial => 0x3
  | .readMeasurement => 0x4

/-- The flags an accepted command writes (R141): LAST_OP, VALID <- 0 and ERR <- NONE; OVR stays. -/
def accept (op : BitVec 4) (s : State) : State :=
  { s with status := { s.status with lastOp := op, valid := false, err := .none } }

/-- A CMD or ADDR write while BUSY = 1: its one effect is OVR <- 1 (R142, R28). -/
def overrun (s : State) : State :=
  { s with status := { s.status with ovr := true } }

/-- OVR <- 0 (R155). -/
def clearOverrun (s : State) : State :=
  { s with status := { s.status with ovr := false } }

/-- The success of an operation that has a value: VALID <- 1, BUSY <- 0, PHASE <- IDLE; ERR stays (R146). -/
def completeWithValue (s : State) : State :=
  { s with status := { s.status with valid := true, busy := false, phase := .idle } }

end Sys2Proof.Machine
end

