-- ==== Sys2Proof/Machine/ModeTable.lean ====
section
/-! DEFINITION. The mode table and its lookups (R100 to R103). -/

namespace Sys2Proof.Machine

/-- The 9 entries of R100, in its order: code, index, DELAY_US. "No host access or reset changes them" (R44). -/
def modeTable : List Mode :=
  [ ⟨0xFD, 0, 10000⟩,
    ⟨0xF6, 1, 5000⟩,
    ⟨0xE0, 2, 2000⟩,
    ⟨0x39, 3, 1100000⟩,
    ⟨0x32, 4, 110000⟩,
    ⟨0x2F, 5, 1100000⟩,
    ⟨0x24, 6, 110000⟩,
    ⟨0x1E, 7, 1100000⟩,
    ⟨0x15, 8, 110000⟩ ]

/-- The entry of a code: its `ModeIndex` (R103) and `ModeDelayUs` (R102), where it is a mode code. -/
def lookupMode (c : Byte) : Option Mode :=
  modeTable.find? fun m => m.code == c

/-- `IsValidMode(c)` (R101). -/
def isValidMode (c : Byte) : Bool :=
  (lookupMode c).isSome

/-- `ModeDelayUs(c)` (R102); outside the table it is a free value (log entry 8). -/
def modeDelayUs (c : Byte) : Word :=
  match lookupMode c with
  | some m => m.delayUs
  | none => Config.undefinedModeDelayUs c

end Sys2Proof.Machine
end

