-- ==== Sys2Proof/Machine/Ops.lean ====
section
/-! DEFINITION. The sequencer (42_bus_operations.md), the error operation (R186, R147), the settle timer (R191) and
block reset (R200). -/

namespace Sys2Proof.Machine

/-- The outcome of a step of this machine. -/
abbrev Result := Host.Outcome State Fault Refusal

/-- The state with the given inputs to come. -/
def State.withInputs (s : State) (inputs : List Input) : State :=
  { s with inputs := inputs }

/-- The error kinds with what each records (R180). -/
inductive OpError where
  | invalidArgument
  | checksumError
  | transportError (info : Word)
  | illegalCommand
deriving DecidableEq, Repr

/-- The STATUS.ERR outcome of an error (R180). -/
def OpError.kind : OpError → ErrKind
  | .invalidArgument => .invalidArgument
  | .checksumError => .checksumError
  | .transportError _ => .transportError
  | .illegalCommand => .illegalCommand

/-- TERR.INFO after an error: TRANSPORT_ERROR alone writes it, with the transport's `info` unchanged (R183). -/
def OpError.terr (e : OpError) (old : Word) : Word :=
  match e with
  | .transportError info => info
  | .invalidArgument | .checksumError | .illegalCommand => old

/-- `raise E(info)`: the error entry of R186 and R147, shared by every error. It has no return: ERR stays until the
next accepted command (R187), which is `accept`. -/
def raiseError (e : OpError) (s : State) : State :=
  { s with
    status := { s.status with err := e.kind, valid := false, busy := false, phase := .idle }
    terr := e.terr s.terr
    pend := .none }

/-- A CMD or ADDR write takes effect while BUSY = 0 (R141, R154), and only sets OVR while BUSY = 1 (R142). -/
def whileIdle (effect : State → State) (s : State) : State :=
  if s.status.busy then overrun s else effect s

/-- `Start(op, cmdbyte, delay_us)` (R143), which issues the `BusWrite`. -/
def start (op : BusOp) (cmd : Byte) (delayUs : Word) (s : State) : State :=
  { s with
    cur := { op := op, addr := s.addr, cmd := cmd, delayUs := delayUs }
    status := { s.status with busy := true, phase := .write }
    pend := .write
    issued := .busWrite s.addr cmd :: s.issued }

/-- The answer to the write (R144): the settle timer starts, or the operation aborts. -/
def takeWriteAnswer (a : WriteAnswer) (s : State) : State :=
  match a with
  | .ok =>
    { s with
      pend := .none
      status := { s.status with phase := .wait }
      timer := s.cur.delayUs.toNat * Config.ticksPerUs }
  | .transportError info => raiseError (.transportError info) s

/-- The end of a RESET at timer expiry (R145). -/
def finishReset (s : State) : State :=
  { s with status := { s.status with busy := false, phase := .idle } }

/-- The issue of the `BusRead` at timer expiry (R145). -/
def startRead (s : State) : State :=
  { s with
    status := { s.status with phase := .read }
    pend := .read
    issued := .busRead s.cur.addr Config.rspFrameLen :: s.issued }

/-- Timer expiry (R145). -/
def expire (s : State) : State :=
  match s.cur.op with
  | .reset => finishReset s
  | .readSerial => startRead s
  | .readMeasurement => startRead s

/-- One tick of the time base (R191): in WAIT the timer counts down by one, and the tick that takes it to zero is
the expiry (log entry 12). Outside WAIT the timer "holds no meaning" (R39). -/
def timerTick (s : State) : State :=
  match s.status.phase with
  | .wait => if s.timer ≤ 1 then expire { s with timer := 0 } else { s with timer := s.timer - 1 }
  | .idle | .write | .read => s

/-- SERIAL.SN <- SerialOf(b) (R151). -/
def storeSerial (b : Frame) (s : State) : State :=
  { s with results := { s.results with serial := serialOf b } }

/-- RAW, TEMP and RH from the two fields of a frame, all in one step (R152, R174). -/
def storeMeasurement (b : Frame) (s : State) : State :=
  { s with
    results :=
      { s.results with
        tRaw := field0 b
        hRaw := field1 b
        tempLo := (tempOf (field0 b)).extractLsb' 0 32
        tempHi := (tempOf (field0 b)).extractLsb' 32 32
        rhLo := (rhOf (field1 b)).extractLsb' 0 32
        rhHi := (rhOf (field1 b)).extractLsb' 32 32 } }

/-- RXBUF <- b and PEND <- NONE (R146). -/
def receive (b : Frame) (s : State) : State :=
  { s with pend := .none, rxbuf := b }

/-- A received frame that passed `FrameValid` (R146). R146 has no case for RESET (log entry 14). -/
def takeValidFrame (b : Frame) (s : State) : Result :=
  match s.cur.op with
  | .readSerial => .next (completeWithValue (storeSerial b s))
  | .readMeasurement => .next (completeWithValue (storeMeasurement b s))
  | .reset => .fault .resetMakesNoRead

/-- The answer to the read (R146): both checksums are examined before anything else (R124). -/
def takeReadAnswer (a : ReadAnswer) (s : State) : Result :=
  match a with
  | .transportError info => .next (raiseError (.transportError info) s)
  | .ok b =>
    if frameValid b then takeValidFrame b (receive b s)
    else .next (raiseError .checksumError (receive b s))

/-- Block reset (R200): every register and latch takes its R43 value. What the outside agents do next, and what they
have seen, is not the block's and stays (log entry 17). -/
def blockReset (s : State) : State :=
  { State.reset with inputs := s.inputs, hostReads := s.hostReads, issued := s.issued }

end Sys2Proof.Machine
end

