-- ==== Sys2Proof/Machine/BusFrames.lean ====
section
/-! DEFINITION. The meanings of the bus command frames (R70, R71): the outstanding `BusWrite(CUR_ADDR, CUR_CMD)` goes
over the transport port and the transport answers it (R144). -/

namespace Sys2Proof.Machine

/-- The frame is the outstanding `BusWrite` (R41, R143). -/
def frameOutstanding (b : Byte) (s : State) : Bool :=
  decide (s.pend = .write) && s.cur.cmd == b

/-- The command frame `b`: where it is the outstanding `BusWrite` and the transport's answer is the next input, the
engine takes that answer (R144). Unanswered, the engine waits (R196); and a frame that is not outstanding is not on
the bus, so nothing happens (log entries 10 and 11). -/
def busFrame (b : Byte) (s : State) : State :=
  match frameOutstanding b s, s.inputs with
  | true, .writeAnswer a :: rest => takeWriteAnswer a (s.withInputs rest)
  | _, _ => s

/-- BUS_RESET (R150): the frame 0x94. -/
def execBusReset (s : State) : Result := .next (busFrame 0x94 s)

/-- BUS_READ_SERIAL (R151): the frame 0x89. -/
def execBusReadSerial (s : State) : Result := .next (busFrame 0x89 s)

/-- BUS_MEASURE_FD (R152): the frame 0xFD. -/
def execBusMeasureFD (s : State) : Result := .next (busFrame 0xFD s)

/-- BUS_MEASURE_F6 (R152): the frame 0xF6. -/
def execBusMeasureF6 (s : State) : Result := .next (busFrame 0xF6 s)

/-- BUS_MEASURE_E0 (R152): the frame 0xE0. -/
def execBusMeasureE0 (s : State) : Result := .next (busFrame 0xE0 s)

/-- BUS_MEASURE_39 (R152): the frame 0x39. -/
def execBusMeasure39 (s : State) : Result := .next (busFrame 0x39 s)

/-- BUS_MEASURE_32 (R152): the frame 0x32. -/
def execBusMeasure32 (s : State) : Result := .next (busFrame 0x32 s)

/-- BUS_MEASURE_2F (R152): the frame 0x2F. -/
def execBusMeasure2F (s : State) : Result := .next (busFrame 0x2F s)

/-- BUS_MEASURE_24 (R152): the frame 0x24. -/
def execBusMeasure24 (s : State) : Result := .next (busFrame 0x24 s)

/-- BUS_MEASURE_1E (R152): the frame 0x1E. -/
def execBusMeasure1E (s : State) : Result := .next (busFrame 0x1E s)

/-- BUS_MEASURE_15 (R152): the frame 0x15. -/
def execBusMeasure15 (s : State) : Result := .next (busFrame 0x15 s)

end Sys2Proof.Machine
end

