-- ==== Sys2Proof/Machine/Commands.lean ====
section
/-! DEFINITION. The meanings of the command words: a host write to CMD (R141). Each is accepted while BUSY = 0 and
only sets OVR while BUSY = 1. -/

namespace Sys2Proof.Machine

/-- RESET (R150): starts the bus operation with the frame 0x94 and a wait of 1000 µs. -/
def execReset (s : State) : Result :=
  .next (whileIdle (fun s => start .reset 0x94 1000 (accept 0x1 s)) s)

/-- SET_MODE(code) while BUSY = 0 (R104): stores the mode of the table, or raises INVALID_ARGUMENT. -/
def setMode (code : Byte) (s : State) : State :=
  match lookupMode code with
  | some m => { accept 0x2 s with mode := m }
  | none => raiseError .invalidArgument (accept 0x2 s)

/-- SET_MODE (R104). -/
def execSetMode (code : Byte) (s : State) : Result :=
  .next (whileIdle (setMode code) s)

/-- READ_SERIAL (R151): starts the bus operation with the frame 0x89 and a wait of 10000 µs. -/
def execReadSerial (s : State) : Result :=
  .next (whileIdle (fun s => start .readSerial 0x89 10000 (accept 0x3 s)) s)

/-- READ_MEASUREMENT (R152): starts the bus operation with the frame MODE.CODE and the mode's delay. -/
def execReadMeasurement (s : State) : Result :=
  .next (whileIdle (fun s => start .readMeasurement s.mode.code (modeDelayUs s.mode.code) (accept 0x4 s)) s)

/-- A reserved OP (R77, R184): completes in its acceptance step with ILLEGAL_COMMAND. -/
def illegalCommand (op : BitVec 4) (s : State) : State :=
  whileIdle (fun s => raiseError .illegalCommand (accept op s)) s

/-- The reserved OP 0x0 (R77). -/
def execIllegal0 (s : State) : Result := .next (illegalCommand 0x0 s)

/-- The reserved OP 0x5 (R77). -/
def execIllegal5 (s : State) : Result := .next (illegalCommand 0x5 s)

/-- The reserved OP 0x6 (R77). -/
def execIllegal6 (s : State) : Result := .next (illegalCommand 0x6 s)

/-- The reserved OP 0x7 (R77). -/
def execIllegal7 (s : State) : Result := .next (illegalCommand 0x7 s)

/-- The reserved OP 0x8 (R77). -/
def execIllegal8 (s : State) : Result := .next (illegalCommand 0x8 s)

/-- The reserved OP 0x9 (R77). -/
def execIllegal9 (s : State) : Result := .next (illegalCommand 0x9 s)

/-- The reserved OP 0xA (R77). -/
def execIllegalA (s : State) : Result := .next (illegalCommand 0xA s)

/-- The reserved OP 0xB (R77). -/
def execIllegalB (s : State) : Result := .next (illegalCommand 0xB s)

/-- The reserved OP 0xC (R77). -/
def execIllegalC (s : State) : Result := .next (illegalCommand 0xC s)

/-- The reserved OP 0xD (R77). -/
def execIllegalD (s : State) : Result := .next (illegalCommand 0xD s)

/-- The reserved OP 0xE (R77). -/
def execIllegalE (s : State) : Result := .next (illegalCommand 0xE s)

/-- The reserved OP 0xF (R77). -/
def execIllegalF (s : State) : Result := .next (illegalCommand 0xF s)

end Sys2Proof.Machine
end

