-- ==== Sys2Proof/WellFormed.lean ====
section
/-! DEFINITION. Well-formedness of accesses, transfers and instructions. -/

namespace Sys2Proof

/-- A host access of the one width the window takes: 4 bytes (R52). -/
def Access.isWord : Access → Bool
  | .write _ width _ => width == 4
  | .read _ width => width == 4

/-- A host access to "an offset that is a multiple of 4" (R52). -/
def Access.isAligned : Access → Bool
  | .write off _ _ => off.toNat % 4 == 0
  | .read off _ => off.toNat % 4 == 0

/-- "Host accesses are 32-bit, to an offset that is a multiple of 4" (R52). -/
def Access.wellFormed (a : Access) : Bool :=
  a.isWord && a.isAligned

/-- The 11 bytes a command frame can hold (R71). -/
def commandFrameBytes : List Byte :=
  [0x94, 0x89, 0xFD, 0xF6, 0xE0, 0x39, 0x32, 0x2F, 0x24, 0x1E, 0x15]

/-- A transfer that can carry an instruction: a well-formed host access, or one of the 11 frames of R71. -/
def Transfer.wellFormed : Transfer → Bool
  | .host a => a.wellFormed
  | .frame b => commandFrameBytes.contains b

/-- Every term of `Instr` is well formed: each operand has exactly the width of its field (`u8`, `u8`, one bit),
"Decode never fails" (R75), and a SET_MODE with any ARG "is a legal encoding" (R78). The checks that can fail
are on the transfers, above. -/
def Instr.wellFormed (_ : Instr) : Bool := true

end Sys2Proof
end

