-- ==== Sys2Proof/Machine/Operands.lean ====
section
/-! DEFINITION. The host register window: what a read of each offset returns (R21), and how an access by host
address reaches the window (R50). -/

namespace Sys2Proof.Machine

/-- What a word read of an aligned offset returns (R21): CMD and the unmapped offsets read 0 (R31, R53), and so do
the reserved bits of every register. -/
def readRegister (s : State) (off : Byte) : Word :=
  match off.toNat with
  | 0x04 => s.status.word
  | 0x08 => 0#24 ++ s.addr
  | 0x0C => 0#20 ++ s.mode.index ++ s.mode.code
  | 0x10 => s.mode.delayUs
  | 0x14 => s.results.serial
  | 0x18 => s.results.hRaw ++ s.results.tRaw
  | 0x1C => s.results.tempLo
  | 0x20 => s.results.tempHi
  | 0x24 => s.results.rhLo
  | 0x28 => s.results.rhHi
  | 0x2C => s.terr
  | _ => 0

/-- What a host read of any width at any offset returns: "A host read of any other width, or at an offset not a
multiple of 4, returns 0" (R52). -/
def readWindow (s : State) (off : Byte) (width : Nat) : Word :=
  if (Access.read off width).wellFormed then readRegister s off else 0

/-- A host read: its word goes to the host and no register changes (R55). -/
def hostRead (off : Byte) (width : Nat) (s : State) : State :=
  { s with hostReads := readWindow s off width :: s.hostReads }

/-- The offset in the window of a host address, where the window holds it (R50). -/
def windowOffset (addr : Nat) : Option Byte :=
  if Config.regBase ≤ addr ∧ addr < Config.regBase + Config.regWindow then
    some (BitVec.ofNat 8 (addr - Config.regBase))
  else none

/-- `MemWrite(addr, width, v)` (R7), as what reaches the block. -/
def memWrite (addr width : Nat) (v : Word) : List Input :=
  match windowOffset addr with
  | some off => [.host (.write off width v)]
  | none => []

/-- `MemRead(addr, width)` (R7), as what reaches the block. -/
def memRead (addr width : Nat) : List Input :=
  match windowOffset addr with
  | some off => [.host (.read off width)]
  | none => []

end Sys2Proof.Machine
end

