-- ==== Sys2Proof/Machine/HostAccess.lean ====
section
/-! DEFINITION. The meanings of the host accesses that are not command words: GET_MODE, SET_ADDR, CLEAR_OVR. -/

namespace Sys2Proof.Machine

/-- GET_MODE (R105): the word read of MODE, then the word read of MODE_DELAY, with no access between them; it is
legal while BUSY = 1 and writes no state of the block. -/
def execGetMode (s : State) : Result :=
  .next (hostRead 0x10 4 (hostRead 0x0C 4 s))

/-- ADDR.ADDRESS <- a. -/
def setAddr (a : Byte) (s : State) : State :=
  { s with addr := a }

/-- SET_ADDR (R154): stores the address while BUSY = 0; while BUSY = 1 it only sets OVR. -/
def execSetAddr (a : Byte) (s : State) : Result :=
  .next (whileIdle (setAddr a) s)

/-- CLEAR_OVR (R155): `if v[7] = 1: STATUS.OVR <- 0`, busy or not. -/
def execClearOvr (w1c : Bool) (s : State) : Result :=
  .next (if w1c then clearOverrun s else s)

end Sys2Proof.Machine
end

