-- ==== Sys2Proof/Machine/Dispatch.lean ====
section
/-! DEFINITION. The dispatch of an instruction to its meaning. -/

namespace Sys2Proof.Machine

def exec (i : Instr) (s : State) : Host.Outcome State Fault Refusal :=
  match i with
  | .reset => Sys2Proof.Machine.execReset s
  | .setMode code => Sys2Proof.Machine.execSetMode code s
  | .readSerial => Sys2Proof.Machine.execReadSerial s
  | .readMeasurement => Sys2Proof.Machine.execReadMeasurement s
  | .illegal0 => Sys2Proof.Machine.execIllegal0 s
  | .illegal5 => Sys2Proof.Machine.execIllegal5 s
  | .illegal6 => Sys2Proof.Machine.execIllegal6 s
  | .illegal7 => Sys2Proof.Machine.execIllegal7 s
  | .illegal8 => Sys2Proof.Machine.execIllegal8 s
  | .illegal9 => Sys2Proof.Machine.execIllegal9 s
  | .illegalA => Sys2Proof.Machine.execIllegalA s
  | .illegalB => Sys2Proof.Machine.execIllegalB s
  | .illegalC => Sys2Proof.Machine.execIllegalC s
  | .illegalD => Sys2Proof.Machine.execIllegalD s
  | .illegalE => Sys2Proof.Machine.execIllegalE s
  | .illegalF => Sys2Proof.Machine.execIllegalF s
  | .getMode => Sys2Proof.Machine.execGetMode s
  | .setAddr a => Sys2Proof.Machine.execSetAddr a s
  | .clearOvr w1c => Sys2Proof.Machine.execClearOvr w1c s
  | .busReset => Sys2Proof.Machine.execBusReset s
  | .busReadSerial => Sys2Proof.Machine.execBusReadSerial s
  | .busMeasureFD => Sys2Proof.Machine.execBusMeasureFD s
  | .busMeasureF6 => Sys2Proof.Machine.execBusMeasureF6 s
  | .busMeasureE0 => Sys2Proof.Machine.execBusMeasureE0 s
  | .busMeasure39 => Sys2Proof.Machine.execBusMeasure39 s
  | .busMeasure32 => Sys2Proof.Machine.execBusMeasure32 s
  | .busMeasure2F => Sys2Proof.Machine.execBusMeasure2F s
  | .busMeasure24 => Sys2Proof.Machine.execBusMeasure24 s
  | .busMeasure1E => Sys2Proof.Machine.execBusMeasure1E s
  | .busMeasure15 => Sys2Proof.Machine.execBusMeasure15 s

end Sys2Proof.Machine
end

