-- ==== Sys2Proof/Decode.lean ====
section
/-! DEFINITION. The decoder of command words (R75), host accesses (R80, R81) and bus command frames (R71), and
the encoder written from the same encodings. -/

namespace Sys2Proof

/-- Why a list of transfers holds no instruction. -/
inductive Reject where
  /-- There is no transfer to decode. -/
  | noTransfer
  /-- A width other than 4 bytes or an offset that is no multiple of 4 (R52). -/
  | notAWordAccess
  /-- An offset of 0x30 to 0xFC (R53). -/
  | unmapped
  /-- A write to a register that is RO as a whole (R54). -/
  | readOnly
  /-- A read of one register: it is no row of the opcode table (R55). -/
  | registerRead
  /-- A byte outside the 11 command frames (R71, R82). -/
  | notACommandFrame
deriving DecidableEq, Repr

/-- OP = w[3:0] (R73). -/
def opField (w : Word) : BitVec 4 := w.extractLsb' 0 4

/-- ARG = w[15:8] (R73). -/
def argField (w : Word) : Byte := w.extractLsb' 8 8

/-- `Decode(w)` of R75: total, and blind to bits [7:4] and [31:16]. -/
def decodeCommand (w : Word) : Instr :=
  match (opField w).toNat with
  | 0x1 => .reset
  | 0x2 => .setMode (argField w)
  | 0x3 => .readSerial
  | 0x4 => .readMeasurement
  | 0x0 => .illegal0
  | 0x5 => .illegal5
  | 0x6 => .illegal6
  | 0x7 => .illegal7
  | 0x8 => .illegal8
  | 0x9 => .illegal9
  | 0xA => .illegalA
  | 0xB => .illegalB
  | 0xC => .illegalC
  | 0xD => .illegalD
  | 0xE => .illegalE
  | _ => .illegalF

/-- The instruction of a command frame's byte (R71). -/
def decodeFrame (b : Byte) : Option Instr :=
  match b.toNat with
  | 0x94 => some .busReset
  | 0x89 => some .busReadSerial
  | 0xFD => some .busMeasureFD
  | 0xF6 => some .busMeasureF6
  | 0xE0 => some .busMeasureE0
  | 0x39 => some .busMeasure39
  | 0x32 => some .busMeasure32
  | 0x2F => some .busMeasure2F
  | 0x24 => some .busMeasure24
  | 0x1E => some .busMeasure1E
  | 0x15 => some .busMeasure15
  | _ => none

/-- A word write at an aligned offset (R21): CMD, STATUS and ADDR take one. -/
def decodeWrite (off : Byte) (v : Word) : Except Reject Instr :=
  match off.toNat with
  | 0x00 => .ok (decodeCommand v)
  | 0x04 => .ok (.clearOvr (v.getLsbD 7))
  | 0x08 => .ok (.setAddr (v.extractLsb' 0 8))
  | n => .error (if n ≤ 0x2C then .readOnly else .unmapped)

/-- Decodes the instruction that a list of transfers begins with; total, and rejecting by name.
GET_MODE is the read of MODE followed at once by the read of MODE_DELAY (R105, R81 `getmode`). -/
def decode : List Transfer → Except Reject Instr
  | [] => .error .noTransfer
  | .frame b :: _ =>
    match decodeFrame b with
    | some i => .ok i
    | none => .error .notACommandFrame
  | .host (.write off width v) :: _ =>
    if (Access.write off width v).wellFormed then decodeWrite off v else .error .notAWordAccess
  | .host (.read off width) :: rest =>
    if (Access.read off width).wellFormed then
      if off = 0x0C ∧ rest.head? = some (.host (.read 0x10 4)) then .ok .getMode
      else .error (if off.toNat ≤ 0x2C then .registerRead else .unmapped)
    else .error .notAWordAccess

/-- A command word with the given OP and ARG and every reserved bit 0 (R73: "software writes 0"). -/
def commandWord (op : BitVec 4) (arg : Byte) : Word := 0#16 ++ arg ++ 0#4 ++ op

/-- A host write of a command word to CMD (R31, R73). -/
def encodeCommand (op : BitVec 4) (arg : Byte) : List Transfer :=
  [.host (.write 0x00 4 (commandWord op arg))]

/-- The transfers of an instruction, written from R71, R73, R74 and R81. -/
def encode : Instr → List Transfer
  | .reset => encodeCommand 0x1 0
  | .setMode code => encodeCommand 0x2 code
  | .readSerial => encodeCommand 0x3 0
  | .readMeasurement => encodeCommand 0x4 0
  | .illegal0 => encodeCommand 0x0 0
  | .illegal5 => encodeCommand 0x5 0
  | .illegal6 => encodeCommand 0x6 0
  | .illegal7 => encodeCommand 0x7 0
  | .illegal8 => encodeCommand 0x8 0
  | .illegal9 => encodeCommand 0x9 0
  | .illegalA => encodeCommand 0xA 0
  | .illegalB => encodeCommand 0xB 0
  | .illegalC => encodeCommand 0xC 0
  | .illegalD => encodeCommand 0xD 0
  | .illegalE => encodeCommand 0xE 0
  | .illegalF => encodeCommand 0xF 0
  | .getMode => [.host (.read 0x0C 4), .host (.read 0x10 4)]
  | .setAddr a => [.host (.write 0x08 4 (0#24 ++ a))]
  | .clearOvr w1c => [.host (.write 0x04 4 (0#24 ++ BitVec.ofBool w1c ++ 0#7))]
  | .busReset => [.frame 0x94]
  | .busReadSerial => [.frame 0x89]
  | .busMeasureFD => [.frame 0xFD]
  | .busMeasureF6 => [.frame 0xF6]
  | .busMeasureE0 => [.frame 0xE0]
  | .busMeasure39 => [.frame 0x39]
  | .busMeasure32 => [.frame 0x32]
  | .busMeasure2F => [.frame 0x2F]
  | .busMeasure24 => [.frame 0x24]
  | .busMeasure1E => [.frame 0x1E]
  | .busMeasure15 => [.frame 0x15]

/-- The transfer that a number of the opcode table stands for: one byte that is a command frame of R71, or else a
command word written to CMD (R31). The table gives the other host accesses no number (log entry 19). -/
def tableTransfer (nbits w : Nat) : Transfer :=
  if nbits ≤ 8 ∧ (decodeFrame (BitVec.ofNat 8 w)).isSome then .frame (BitVec.ofNat 8 w)
  else .host (.write 0x00 4 (BitVec.ofNat 32 w))

/-- The instruction the decoder reads from the `nbits` bits `w` of an opcode-table row; a command word has
32 bits and no other length (R79), so a longer one is refused. -/
def decodeTableWord (nbits w : Nat) : Option Instr :=
  if nbits ≤ 32 then (decode [tableTransfer nbits w]).toOption else none

end Sys2Proof
end

