-- ==== Sys2Proof/Machine/Fetch.lean ====
section
/-! DEFINITION. How a step finds its instruction among the inputs, and what an input that carries none does. -/

namespace Sys2Proof.Machine

/-- The transfers before the decoder: the host's next access and, where a second follows it at once, that one too; or
the outstanding command frame, where the transport is about to answer it. -/
def State.transfers (s : State) : List Transfer :=
  match s.inputs with
  | .host a :: .host a' :: _ => [.host a, .host a']
  | .host a :: _ => [.host a]
  | .writeAnswer _ :: _ => if s.pend = .write then [.frame s.cur.cmd] else []
  | _ => []

/-- How many inputs the fetch of an instruction takes: one for each host access of its encoding. A command frame
leaves the transport's answer in place, as its operand. -/
def inputsTaken (i : Instr) : Nat :=
  (encode i).countP fun
    | .host _ => true
    | .frame _ => false

/-- The next instruction, and the state with its accesses taken from the inputs; none where the next input carries
no instruction. -/
def fetch (s : State) : Option (Instr × State) :=
  match decode s.transfers with
  | .ok i => some (i, s.withInputs (s.inputs.drop (inputsTaken i)))
  | .error _ => none

/-- What an input that carries no instruction does. A host read returns its word; a host write is ignored (R52, R53,
R54). The engine takes an answer only where PEND names its request (R41, R144, R146), and discards it elsewhere
(R203, log entry 15). -/
def takeInput (inp : Input) (s : State) : Result :=
  match inp with
  | .host (.read off width) => .next (hostRead off width s)
  | .host (.write _ _ _) => .next s
  | .writeAnswer a => .next (if s.pend = .write then takeWriteAnswer a s else s)
  | .readAnswer a => if s.pend = .read then takeReadAnswer a s else .next s
  | .tick => .next (timerTick s)
  | .blockReset => .next (blockReset s)

/-- The step of an input that carries no instruction. Where no agent acts, nothing changes (R10, log entry 2). -/
def otherStep (s : State) : Result :=
  match s.inputs with
  | [] => .next s
  | inp :: rest => takeInput inp (s.withInputs rest)

/-- The state in which the `BusWrite` of the frame `b` is outstanding: the operation that sends `b` has just been
accepted (R143, R71); for a mode code, in that mode. A byte outside the 11 frames changes nothing. -/
def placeFrame (b : Byte) (s : State) : State :=
  match decodeFrame b with
  | none => s
  | some .busReset => start .reset b 1000 (accept 0x1 s)
  | some .busReadSerial => start .readSerial b 10000 (accept 0x3 s)
  | some _ =>
    start .readMeasurement b (modeDelayUs b) (accept 0x4 { s with mode := (lookupMode b).getD s.mode })

/-- The state whose next input is the given transfer: a host access, or the outstanding frame `b` with the transport
about to answer `Ok` (log entry 2). -/
def placeTransfer (t : Transfer) (s : State) : State :=
  match t with
  | .host a => s.withInputs (.host a :: s.inputs)
  | .frame b => (placeFrame b s).withInputs (.writeAnswer .ok :: s.inputs)

end Sys2Proof.Machine
end

