-- ==== Sys2Proof/Machine/Step.lean ====
section
/-! DEFINITION. One step of the machine: the next input's instruction, or what the input does without one. -/

namespace Sys2Proof.Machine

/-- One step (R10): one host access, transport answer, tick or block reset; for GET_MODE two host reads. -/
def step (s : State) : Host.Outcome State Fault Refusal :=
  match fetch s with
  | some (i, s') => exec i s'
  | none => otherStep s

/-- The state whose next step runs the instruction of an opcode-table row. -/
def State.withFetchWord (s : State) (nbits w : Nat) : State :=
  placeTransfer (tableTransfer nbits w) s

end Sys2Proof.Machine
end

