-- ==== Sys2Proof/Safety.lean ====
section
/-! DEFINITION. What the spec says of every reachable state, as one invariant, and the terms the statements use. -/

namespace Sys2Proof.Machine

/-- The request that is outstanding in a phase (R41): "PEND = WRITE exactly when PHASE = WRITE, and PEND = READ exactly
when PHASE = READ". -/
def Phase.pend : Phase → Pend
  | .idle => .none
  | .write => .write
  | .wait => .none
  | .read => .read

/-- A request the engine can issue: one of the 11 command frames (R82), or a read of 6 bytes (R58). -/
def Request.legal : Request → Prop
  | .busWrite _ byte => byte ∈ commandFrameBytes
  | .busRead _ count => count = 6

/-- The outstanding request (R143, R145): what PEND and the latches say of it. -/
def State.request (s : State) : Option Request :=
  match s.pend with
  | .none => none
  | .write => some (.busWrite s.cur.addr s.cur.cmd)
  | .read => some (.busRead s.cur.addr 6)

/-- The frame and the delay an operation latches at its acceptance (R141, R143). -/
def State.latchesAgree (s : State) : Prop :=
  match s.cur.op with
  | .reset => s.cur.cmd = 0x94 ∧ s.cur.delayUs = 1000
  | .readSerial => s.cur.cmd = 0x89 ∧ s.cur.delayUs = 10000
  | .readMeasurement => s.cur.cmd = s.mode.code ∧ s.cur.delayUs = s.mode.delayUs

/-- The OPs that can end with an outcome (R180): "raised by". -/
def ErrKind.allows (op : BitVec 4) : ErrKind → Prop
  | .none => True
  | .invalidArgument => op = 0x2
  | .checksumError => op = 0x3 ∨ op = 0x4
  | .transportError => op = 0x1 ∨ op = 0x3 ∨ op = 0x4
  | .illegalCommand => op = 0x0 ∨ 0x5 ≤ op

/-- What holds in every reachable state. -/
structure State.Inv (s : State) : Prop where
  /-- R107: CODE is a mode code, and INDEX and DELAY_US agree with it. -/
  mode_in_table : s.mode ∈ modeTable
  /-- R25: "BUSY = 1 exactly when PHASE is not IDLE". -/
  busy_phase : s.status.busy = true ↔ s.status.phase ≠ .idle
  /-- R41. -/
  pend_phase : s.pend = s.status.phase.pend
  /-- R38, R143: the latches hold the operation in progress; MODE cannot have changed since (R142). -/
  latched : s.status.busy = true → s.latchesAgree
  /-- R38, R142: CUR_ADDR is ADDR, which cannot have changed since. -/
  latched_addr : s.status.busy = true → s.cur.addr = s.addr
  /-- R29: LAST_OP is the OP of the operation in progress. -/
  last_op : s.status.busy = true → s.status.lastOp = s.cur.op.code
  /-- R150: RESET makes no read. -/
  read_op : s.status.phase = .read → s.cur.op ≠ .reset
  /-- R39: in WAIT the timer has not reached zero, and is at most its load. -/
  wait_timer : s.status.phase = .wait → 0 < s.timer ∧ s.timer ≤ s.cur.delayUs.toNat * Config.ticksPerUs
  /-- R26, R27: an operation in progress has no value and no error yet. -/
  busy_outcome : s.status.busy = true → s.status.valid = false ∧ s.status.err = .none
  /-- R26: VALID = 1 only after a READ_SERIAL or READ_MEASUREMENT that ended in success. -/
  valid_outcome : s.status.valid = true → s.status.err = .none ∧ (s.status.lastOp = 0x3 ∨ s.status.lastOp = 0x4)
  /-- R180: the error kinds, each with the commands that raise it. -/
  err_op : s.status.err.allows s.status.lastOp
  /-- R82, R58: every request ever issued is one the engine can issue. -/
  issued_legal : ∀ r ∈ s.issued, r.legal
  /-- R41, R61: the outstanding request is the last one issued. -/
  request_issued : ∀ r, s.request = some r → s.issued.head? = some r

/-- R206: the result registers hold the result of the operation `op`. -/
def State.resultOf (s : State) (op : BitVec 4) : Prop :=
  s.status.busy = false ∧ s.status.valid = true ∧ s.status.lastOp = op

/-- The command-frame instructions with the byte (R71) and the settle delay in µs (R150, R151, R100) of each. -/
def frameInstrs : List (Instr × Byte × Nat) :=
  [ (.busReset, 0x94, 1000),
    (.busReadSerial, 0x89, 10000),
    (.busMeasureFD, 0xFD, 10000),
    (.busMeasureF6, 0xF6, 5000),
    (.busMeasureE0, 0xE0, 2000),
    (.busMeasure39, 0x39, 1100000),
    (.busMeasure32, 0x32, 110000),
    (.busMeasure2F, 0x2F, 1100000),
    (.busMeasure24, 0x24, 110000),
    (.busMeasure1E, 0x1E, 1100000),
    (.busMeasure15, 0x15, 110000) ]

/-- The instructions of the reserved OPs with the OP of each (R77). -/
def illegalInstrs : List (Instr × BitVec 4) :=
  [ (.illegal0, 0x0),
    (.illegal5, 0x5),
    (.illegal6, 0x6),
    (.illegal7, 0x7),
    (.illegal8, 0x8),
    (.illegal9, 0x9),
    (.illegalA, 0xA),
    (.illegalB, 0xB),
    (.illegalC, 0xC),
    (.illegalD, 0xD),
    (.illegalE, 0xE),
    (.illegalF, 0xF) ]

/-- A frame with one of its 48 bits flipped: bit `k % 8` of byte `k / 8` (R128). -/
def flipBit (b : Frame) (k : Nat) : Frame :=
  let flip (n : Nat) (x : Byte) : Byte := if k / 8 = n then x ^^^ (1#8 <<< (k % 8)) else x
  ⟨flip 0 b.b0, flip 1 b.b1, flip 2 b.b2, flip 3 b.b3, flip 4 b.b4, flip 5 b.b5⟩

end Sys2Proof.Machine
end

