-- ==== Sys2Proof/Certificates/Slice0/Obligations.lean ====
section
/-! DEFINITION. The statements for the provers, one `def Obligations.<Name> : Prop` each. -/

open Sys2Proof Sys2Proof.Machine

/-- The state after block reset holds every value that R43 gives. State.reset has ADDR 0x44, MODE.CODE 0xFD,
MODE.INDEX 0, MODE_DELAY 10000, STATUS all zero (BUSY, VALID, ERR = NONE, OVR, LAST_OP, PHASE = IDLE; word 0),
SERIAL, RAW, TEMP, RH and TERR 0, PEND NONE, and the mode table is R100's nine rows. R43 gives the latches,
TIMER and RXBUF no value ('unspecified'), and nothing is said of them. Rests on R43, R44. -/
def Obligations.ResetHoldsTheSpecifiedValues : Prop :=
  State.reset.addr = 0x44 ∧
    State.reset.mode = ⟨0xFD, 0, 10000⟩ ∧
    State.reset.status = ⟨false, false, .none, false, 0, .idle⟩ ∧
    State.reset.status.word = 0 ∧
    State.reset.results = ⟨0, 0, 0, 0, 0, 0, 0⟩ ∧
    State.reset.terr = 0 ∧
    State.reset.pend = .none ∧
    modeTable =
      [⟨0xFD, 0, 10000⟩, ⟨0xF6, 1, 5000⟩, ⟨0xE0, 2, 2000⟩, ⟨0x39, 3, 1100000⟩, ⟨0x32, 4, 110000⟩,
        ⟨0x2F, 5, 1100000⟩, ⟨0x24, 6, 110000⟩, ⟨0x1E, 7, 1100000⟩, ⟨0x15, 8, 110000⟩]

/-- A block reset in any state leaves R43's values and issues nothing. From every state whose next input is a block
reset, the step answers a next state with STATUS, ADDR, MODE, the result registers, TERR and PEND at the R43
values (so IDLE, BUSY = 0, and an outstanding request abandoned), no request issued (R201), and the outside
agents' inputs and what the host has read unchanged (the model's choice, log entry 17). Rests on R200, R201,
R43, 70_reset_and_hazards.md section 1. -/
def Obligations.BlockResetRestoresTheResetValues : Prop :=
  ∀ (s : State) (rest : List Input), s.inputs = .blockReset :: rest →
    ∃ t, step s = .next t ∧
      t.status = ⟨false, false, .none, false, 0, .idle⟩ ∧
      t.addr = 0x44 ∧
      t.mode = ⟨0xFD, 0, 10000⟩ ∧
      t.results = ⟨0, 0, 0, 0, 0, 0, 0⟩ ∧
      t.terr = 0 ∧
      t.pend = .none ∧
      t.issued = s.issued ∧
      t.inputs = rest ∧
      t.hostReads = s.hostReads

/-- While BUSY = 0 no step depends on the latches, TIMER or RXBUF. Take a state with BUSY = 0, PHASE = IDLE and PEND
= NONE, and the same state with any other latches, TIMER and RXBUF. One step answers next states that agree in
every register, in PEND, in what the host has read and in what was issued; and where the step starts an
operation (BUSY = 1), in the latches too. Rests on R43, R38, R39, R40, 93_implementation_defined.md V6, V7. -/
def Obligations.IdleEngineIgnoresTheUnspecifiedLatches : Prop :=
  ∀ (s t : State) (c : Latches) (n : Nat) (b : Frame),
    s.status.busy = false → s.status.phase = .idle → s.pend = .none → step s = .next t →
    ∃ t', step { s with cur := c, timer := n, rxbuf := b } = .next t' ∧
      t'.status = t.status ∧
      t'.addr = t.addr ∧
      t'.mode = t.mode ∧
      t'.results = t.results ∧
      t'.terr = t.terr ∧
      t'.pend = t.pend ∧
      t'.inputs = t.inputs ∧
      t'.hostReads = t.hostReads ∧
      t'.issued = t.issued ∧
      (t.status.busy = true → t'.cur = t.cur)

/-- A step is exec of the instruction that the next transfers decode to. A host access: where the host's next
accesses decode to i, and i is not a bus frame, the step is exec i on the state with the accesses of i (the
length of its encoding: one, or GET_MODE's two) taken from the inputs. A bus frame: where the transport is about
to answer the outstanding BusWrite and CUR_CMD decodes to i, the step is exec i on the state itself (the answer
is i's operand). That a step takes its instruction from a list of inputs is the model's form (log entries 1, 9
and 10). Rests on R10, R31, R60, R75, R143, R144, R105. -/
def Obligations.StepRunsTheDecodedInstruction : Prop :=
  (∀ (s : State) (a : Access) (rest : List Input) (i : Instr),
      s.inputs = .host a :: rest → decode s.transfers = .ok i →
      step s = exec i { s with inputs := s.inputs.drop (encode i).length }) ∧
    ∀ (s : State) (a : WriteAnswer) (rest : List Input) (i : Instr),
      s.inputs = .writeAnswer a :: rest → s.pend = .write → decode [.frame s.cur.cmd] = .ok i →
      step s = exec i s

/-- Words written out from the encodings decode to their instructions. The words of R81 and 95_test_vectors.md
(reset, setmode 0xF6 with and without reserved bits, rdserial, rdmeas, reserved OPs), the pair of reads of
getmode, setaddr 0x45, clrovr, and the bus bytes 0x94, 0x89, 0xFD and 0x15 decode to the instructions they stand
for. Rests on R73, R74, R71, R81, 95_test_vectors.md section 2.2. -/
def Obligations.SampleWordsDecodeToTheirInstructions : Prop :=
  decode [.host (.write 0x00 4 0x00000001)] = .ok .reset ∧
    decode [.host (.write 0x00 4 0x0000F602)] = .ok (.setMode 0xF6) ∧
    decode [.host (.write 0x00 4 0xFFFFF6F2)] = .ok (.setMode 0xF6) ∧
    decode [.host (.write 0x00 4 0x00000003)] = .ok .readSerial ∧
    decode [.host (.write 0x00 4 0x00000004)] = .ok .readMeasurement ∧
    decode [.host (.write 0x00 4 0xFFFF0000)] = .ok .illegal0 ∧
    decode [.host (.write 0x00 4 0x00000007)] = .ok .illegal7 ∧
    decode [.host (.read 0x0C 4), .host (.read 0x10 4)] = .ok .getMode ∧
    decode [.host (.write 0x08 4 0x00000045)] = .ok (.setAddr 0x45) ∧
    decode [.host (.write 0x04 4 0x00000080)] = .ok (.clearOvr true) ∧
    decode [.frame 0x94] = .ok .busReset ∧
    decode [.frame 0x89] = .ok .busReadSerial ∧
    decode [.frame 0xFD] = .ok .busMeasureFD ∧
    decode [.frame 0x15] = .ok .busMeasure15

/-- Reserved bits, and ARG under any OP other than SET_MODE, never change the decoding of a command word. Two
command words with the same OP decode to the same instruction, if they also have the same ARG or their OP is not
0x2; in particular each decodes as the same word with its reserved bits zero. Rests on R76. -/
def Obligations.DecodeDependsOnlyOnOpAndSetModeArg : Prop :=
  (∀ w w' : Word, w.extractLsb' 0 4 = w'.extractLsb' 0 4 →
      (w.extractLsb' 0 4 = 0x2#4 → w.extractLsb' 8 8 = w'.extractLsb' 8 8) → decodeCommand w = decodeCommand w') ∧
    ∀ w : Word, decodeCommand w = decodeCommand (w &&& 0x0000FF0F)

/-- Decode of a command word is the case distinction of R75 on w[3:0]. For every 32-bit w: OP 1 gives RESET, OP 2
gives SET_MODE(w[15:8]), OP 3 READ_SERIAL, OP 4 READ_MEASUREMENT, and every other OP the instruction of that
reserved OP; bits [7:4] and [31:16] never change the result, nor ARG for an OP other than 2. Rests on R75. -/
def Obligations.DecodeOfEveryCommandWord : Prop :=
  (∀ w : Word,
      (w.extractLsb' 0 4 = 0x1#4 → decodeCommand w = .reset) ∧
      (w.extractLsb' 0 4 = 0x2#4 → decodeCommand w = .setMode (w.extractLsb' 8 8)) ∧
      (w.extractLsb' 0 4 = 0x3#4 → decodeCommand w = .readSerial) ∧
      (w.extractLsb' 0 4 = 0x4#4 → decodeCommand w = .readMeasurement) ∧
      (w.extractLsb' 0 4 ∉ [0x1#4, 0x2#4, 0x3#4, 0x4#4] →
        (decodeCommand w, w.extractLsb' 0 4) ∈ illegalInstrs)) ∧
    ∀ w w' : Word, w.extractLsb' 0 4 = w'.extractLsb' 0 4 → w.extractLsb' 0 4 ≠ 0x2#4 →
      decodeCommand w = decodeCommand w'

/-- Decoding an encoded instruction gives it back, and encoding a decoded one drops only reserved and ignored bits.
For every instruction i and whatever transfers follow, decode of encode i is i. For every command word w,
encoding what it decodes to gives w with its reserved bits, and for an OP other than 2 its ARG, set to zero; for
SET_ADDR and CLEAR_OVR writes likewise with v[7:0] and v[7]; and every bus byte that decodes encodes to itself.
Rests on R71, R73, R74, R75, R76, R81. -/
def Obligations.DecodeEncodeAgree : Prop :=
  (∀ (i : Instr) (rest : List Transfer), decode (encode i ++ rest) = .ok i) ∧
    (∀ w : Word, encode (decodeCommand w) =
      [.host (.write 0x00 4 (w &&& if w.extractLsb' 0 4 = 0x2#4 then 0x0000FF0F else 0x0000000F))]) ∧
    (∀ (v : Word) (i : Instr), decode [.host (.write 0x08 4 v)] = .ok i →
      encode i = [.host (.write 0x08 4 (v &&& 0x000000FF))]) ∧
    (∀ (v : Word) (i : Instr), decode [.host (.write 0x04 4 v)] = .ok i →
      encode i = [.host (.write 0x04 4 (v &&& 0x00000080))]) ∧
    ∀ (b : Byte) (i : Instr), decodeFrame b = some i → encode i = [.frame b]

/-- A byte decodes as a command frame exactly when it is one of the 11 of R71. The 11 bytes are pairwise distinct;
each decodes to its own instruction; every other byte decodes to none; and the 9 mode codes of the table are
among them, with 0x94 and 0x89 the other two. Rests on R71, R100, R82. -/
def Obligations.CommandFramesAreTheElevenBytes : Prop :=
  frameInstrs.map (fun p => p.2.1) = commandFrameBytes ∧
    commandFrameBytes.Nodup ∧
    commandFrameBytes = 0x94 :: 0x89 :: modeTable.map (fun m => m.code) ∧
    (∀ p ∈ frameInstrs, decodeFrame p.2.1 = some p.1) ∧
    ∀ b : Byte, b ∉ commandFrameBytes → decodeFrame b = none

/-- A host read returns the word of R21's map and changes no register. In every state, for a read of any width at
any offset that does not begin a GET_MODE, the step only adds the read's word to what the host has read. At
width 4 that word is 0 for CMD, the STATUS word, ADDR zero-extended, MODE as INDEX and CODE, MODE_DELAY, SERIAL,
RAW as H_RAW and T_RAW, TEMP_LO, TEMP_HI, RH_LO, RH_HI and TERR at the offsets of R21; it is 0 at every other
offset and for every other width. Rests on R21, R22, R23, R31, R33, R37, R52, R53, R54, R55. -/
def Obligations.HostReadReturnsItsRegister : Prop :=
  (∀ (s : State) (off : Byte) (width : Nat) (rest : List Input),
      s.inputs = .host (.read off width) :: rest →
      ¬ (off = 0x0C ∧ width = 4 ∧ rest.head? = some (.host (.read 0x10 4))) →
      step s = .next { s with inputs := rest, hostReads := readWindow s off width :: s.hostReads }) ∧
    ∀ s : State,
      readWindow s 0x00 4 = 0 ∧
      readWindow s 0x04 4 = s.status.word ∧
      readWindow s 0x08 4 = s.addr.setWidth 32 ∧
      readWindow s 0x0C 4 = (s.mode.index.setWidth 32 <<< 8) ||| s.mode.code.setWidth 32 ∧
      readWindow s 0x10 4 = s.mode.delayUs ∧
      readWindow s 0x14 4 = s.results.serial ∧
      readWindow s 0x18 4 = (s.results.hRaw.setWidth 32 <<< 16) ||| s.results.tRaw.setWidth 32 ∧
      readWindow s 0x1C 4 = s.results.tempLo ∧
      readWindow s 0x20 4 = s.results.tempHi ∧
      readWindow s 0x24 4 = s.results.rhLo ∧
      readWindow s 0x28 4 = s.results.rhHi ∧
      readWindow s 0x2C 4 = s.terr ∧
      (∀ off : Byte, 0x2C#8 < off → readWindow s off 4 = 0) ∧
      (∀ off : Byte, off.toNat % 4 ≠ 0 → readWindow s off 4 = 0) ∧
      ∀ (off : Byte) (width : Nat), width ≠ 4 → readWindow s off width = 0

/-- The bits of the STATUS word are the fields of R24. For every value of the fields: bit 0 BUSY, bit 1 VALID, bits
[3:2] zero, bits [6:4] the code of ERR (NONE 0, INVALID_ARGUMENT 1, CHECKSUM_ERROR 2, TRANSPORT_ERROR 3,
ILLEGAL_COMMAND 4), bit 7 OVR, bits [11:8] LAST_OP, bits [14:12] the code of PHASE (IDLE 0, WRITE 1, WAIT 2,
READ 3), bits [31:15] zero. Rests on R24, R27, R30. -/
def Obligations.StatusWordLayout : Prop :=
  ∀ st : Status,
    st.word.getLsbD 0 = st.busy ∧
      st.word.getLsbD 1 = st.valid ∧
      st.word.extractLsb' 2 2 = 0 ∧
      st.word.extractLsb' 4 3 =
        (match st.err with
          | .none => 0#3
          | .invalidArgument => 1#3
          | .checksumError => 2#3
          | .transportError => 3#3
          | .illegalCommand => 4#3) ∧
      st.word.getLsbD 7 = st.ovr ∧
      st.word.extractLsb' 8 4 = st.lastOp ∧
      st.word.extractLsb' 12 3 =
        (match st.phase with
          | .idle => 0#3
          | .write => 1#3
          | .wait => 2#3
          | .read => 3#3) ∧
      st.word.extractLsb' 15 17 = 0

/-- A write of another width, at a misaligned or unmapped offset, or to a read-only register is ignored. In every
state, busy or not, a host write that is no word write of CMD, STATUS or ADDR leaves every field of the state as
it was: only the input is taken. That such a write to CMD or ADDR while BUSY = 1, of another width or
misaligned, sets no OVR either is the model's reading of R52 beside R142 (log entry 22). Rests on R52, R53, R54. -/
def Obligations.IgnoredHostWritesChangeNothing : Prop :=
  ∀ (s : State) (off : Byte) (width : Nat) (v : Word) (rest : List Input),
    s.inputs = .host (.write off width v) :: rest →
    (width ≠ 4 ∨ off.toNat % 4 ≠ 0 ∨ off ∈ [0x0C, 0x10, 0x14, 0x18, 0x1C, 0x20, 0x24, 0x28, 0x2C] ∨ 0x30#8 ≤ off) →
    step s = .next { s with inputs := rest }

/-- A host access reaches the block exactly when its address is in the window at REG_BASE. For every offset below
0x100, MemWrite and MemRead at REG_BASE + off are the block's access at that offset; at an address below
REG_BASE or at or above REG_BASE + 0x100 they reach nothing. REG_BASE is a free value. Rests on R50, R7,
20_memory.md section 1. -/
def Obligations.WindowSitsAtRegBase : Prop :=
  (∀ (off width : Nat) (v : Word), off < 0x100 →
      memWrite (Config.regBase + off) width v = [.host (.write (BitVec.ofNat 8 off) width v)] ∧
      memRead (Config.regBase + off) width = [.host (.read (BitVec.ofNat 8 off) width)]) ∧
    ∀ (addr width : Nat) (v : Word), addr < Config.regBase ∨ Config.regBase + 0x100 ≤ addr →
      memWrite addr width v = [] ∧ memRead addr width = []

/-- RESET, READ_SERIAL and READ_MEASUREMENT accepted while idle start their bus operation. With BUSY = 0 each
answers the next state in which LAST_OP is its OP, VALID = 0, ERR = NONE, BUSY = 1, PHASE = WRITE, PEND = WRITE,
the latches hold the operation, ADDR, its frame (0x94, 0x89, MODE.CODE) and its delay (1000, 10000, the mode's),
and the BusWrite of that frame to ADDR is issued; nothing else changes. For READ_MEASUREMENT the mode is a row
of the mode table (an invariant, R107). Rests on R141, R143, R150, R151, R152, R29, R38. -/
def Obligations.IdleBusCommandStartsItsOperation : Prop :=
  ∀ s : State, s.status.busy = false →
    exec .reset s = .next
      { s with
        status := { s.status with lastOp := 0x1, valid := false, err := .none, busy := true, phase := .write }
        cur := ⟨.reset, s.addr, 0x94, 1000⟩
        pend := .write
        issued := .busWrite s.addr 0x94 :: s.issued } ∧
    exec .readSerial s = .next
      { s with
        status := { s.status with lastOp := 0x3, valid := false, err := .none, busy := true, phase := .write }
        cur := ⟨.readSerial, s.addr, 0x89, 10000⟩
        pend := .write
        issued := .busWrite s.addr 0x89 :: s.issued } ∧
    (s.mode ∈ modeTable →
      exec .readMeasurement s = .next
        { s with
          status := { s.status with lastOp := 0x4, valid := false, err := .none, busy := true, phase := .write }
          cur := ⟨.readMeasurement, s.addr, s.mode.code, s.mode.delayUs⟩
          pend := .write
          issued := .busWrite s.addr s.mode.code :: s.issued })

/-- IsValidMode is true exactly for the 9 codes of the mode table. For every byte c, IsValidMode(c) is true exactly
when c is 0xFD, 0xF6, 0xE0, 0x39, 0x32, 0x2F, 0x24, 0x1E or 0x15. Rests on R101. -/
def Obligations.ValidModesAreTheNineCodes : Prop :=
  ∀ c : Byte, isValidMode c = true ↔ c ∈ [0xFD, 0xF6, 0xE0, 0x39, 0x32, 0x2F, 0x24, 0x1E, 0x15]

/-- SET_MODE with a mode code stores the code, its index and its delay, and does no I/O. With BUSY = 0, for every
row of the mode table SET_MODE with its code answers the next state in which MODE.CODE, MODE.INDEX and
MODE_DELAY are that row, LAST_OP = 2, VALID = 0 and ERR = NONE; nothing else changes, and nothing is issued.
Rests on R104, R101, R102, R103, R23, R37. -/
def Obligations.SetModeStoresAValidMode : Prop :=
  ∀ (s : State) (m : Mode), m ∈ modeTable → s.status.busy = false →
    exec (.setMode m.code) s = .next
      { s with status := { s.status with lastOp := 0x2, valid := false, err := .none }, mode := m }

/-- SET_MODE with any other code raises INVALID_ARGUMENT and leaves the mode unchanged. With BUSY = 0, PHASE = IDLE
and PEND = NONE (together an invariant of an idle engine), SET_MODE with a code that no row of the mode table
has answers the next state in which ERR = INVALID_ARGUMENT, LAST_OP = 2 and VALID = 0; MODE, MODE_DELAY and
every register except STATUS are unchanged. Rests on R181. -/
def Obligations.SetModeRejectsAnInvalidCode : Prop :=
  ∀ (s : State) (code : Byte), (∀ m ∈ modeTable, m.code ≠ code) →
    s.status.busy = false → s.status.phase = .idle → s.pend = .none →
    exec (.setMode code) s = .next
      { s with status := { s.status with lastOp := 0x2, valid := false, err := .invalidArgument } }

/-- A command with a reserved OP completes at once with ILLEGAL_COMMAND, or only sets OVR while busy. For each of
the 12 reserved OPs: with BUSY = 0, PHASE = IDLE and PEND = NONE (together an invariant of an idle engine) it
answers the next state in which LAST_OP is the OP, VALID = 0 and ERR = ILLEGAL_COMMAND, and nothing else
changes; with BUSY = 1 it answers the state with OVR = 1 and nothing else changed. Rests on R77. -/
def Obligations.ReservedOpRaisesIllegalCommand : Prop :=
  ∀ p ∈ illegalInstrs, ∀ s : State,
    (s.status.busy = false → s.status.phase = .idle → s.pend = .none →
      exec p.1 s = .next
        { s with status := { s.status with lastOp := p.2, valid := false, err := .illegalCommand } }) ∧
    (s.status.busy = true → exec p.1 s = .next { s with status := { s.status with ovr := true } })

/-- A CMD or ADDR write while BUSY = 1 only sets OVR. For every word written to CMD or ADDR while BUSY = 1, the step
answers the state with OVR = 1 and every other field unchanged: LAST_OP, VALID, ERR, PHASE, ADDR, MODE, the
latches, the timer, the results and the requests issued. Rests on R142. -/
def Obligations.WriteWhileBusyOnlySetsOvr : Prop :=
  ∀ (s : State) (off : Byte) (v : Word) (rest : List Input),
    s.status.busy = true → off = 0x00 ∨ off = 0x08 → s.inputs = .host (.write off 4 v) :: rest →
    step s = .next { s with inputs := rest, status := { s.status with ovr := true } }

/-- SET_ADDR stores v[7:0] while BUSY = 0 and only sets OVR while BUSY = 1. For every 8-bit address: with BUSY = 0
SET_ADDR answers the state with ADDR the address and nothing else changed, with BUSY = 1 the state with OVR = 1
and nothing else changed. For every word v written to offset 0x08, the step is SET_ADDR of v[7:0]. Rests on
R154, R22, R55. -/
def Obligations.SetAddrStoresTheAddressWhileIdle : Prop :=
  (∀ (s : State) (a : Byte),
      (s.status.busy = false → exec (.setAddr a) s = .next { s with addr := a }) ∧
      (s.status.busy = true → exec (.setAddr a) s = .next { s with status := { s.status with ovr := true } })) ∧
    ∀ (s : State) (v : Word) (rest : List Input), s.inputs = .host (.write 0x08 4 v) :: rest →
      step s = exec (.setAddr (v.extractLsb' 0 8)) { s with inputs := rest }

/-- CLEAR_OVR clears OVR exactly when bit 7 of the written word is 1, busy or not. In every state CLEAR_OVR with the
bit 1 answers the state with OVR = 0 and nothing else changed, with the bit 0 the state itself. For every word v
written to offset 0x04, the step clears OVR if v[7] = 1 and changes nothing else; all other bits of v are
ignored. Rests on R155. -/
def Obligations.ClearOvrClearsOnlyOnBitSeven : Prop :=
  (∀ s : State, exec (.clearOvr true) s = .next { s with status := { s.status with ovr := false } }) ∧
    (∀ s : State, exec (.clearOvr false) s = .next s) ∧
    ∀ (s : State) (v : Word) (rest : List Input), s.inputs = .host (.write 0x04 4 v) :: rest →
      step s = .next
        { s with inputs := rest, status := { s.status with ovr := s.status.ovr && !v.getLsbD 7 } }

/-- GET_MODE returns the MODE word and then MODE_DELAY, busy or not, and changes nothing of the block. In every
state GET_MODE answers the next state in which the host has read MODE (INDEX in bits [11:8], CODE in bits [7:0],
the rest 0) and after it MODE_DELAY, and nothing else changed. Rests on R105, R23, R37, R81. -/
def Obligations.GetModeReturnsModeAndDelay : Prop :=
  ∀ s : State, ∃ m : Word,
    exec .getMode s = .next { s with hostReads := s.mode.delayUs :: m :: s.hostReads } ∧
      m.extractLsb' 0 8 = s.mode.code ∧ m.extractLsb' 8 4 = s.mode.index ∧ m.extractLsb' 12 20 = 0

/-- GET_MODE in one step leaves what its two reads leave when made one after the other. In every state whose next
two inputs are the word reads of MODE and of MODE_DELAY, one step answers the state that the two single reads
answer, taken as two accesses. It is what makes the model's reading of an adjacent pair as one instruction (log
entry 9) faithful to R56. Rests on R105, R56, R81. -/
def Obligations.GetModeIsItsTwoReads : Prop :=
  ∀ (s t u : State) (rest : List Input),
    s.inputs = .host (.read 0x0C 4) :: .host (.read 0x10 4) :: rest →
    step { s with inputs := [.host (.read 0x0C 4)] } = .next t →
    step { t with inputs := .host (.read 0x10 4) :: rest } = .next u →
    step s = .next u

/-- A command frame that the transport answers Ok starts the settle timer. For each of the 11 command-frame
instructions, where its byte is the outstanding BusWrite and the transport's next answer is Ok, it answers the
next state in which PEND = NONE, PHASE = WAIT and TIMER is CUR_DELAY_US times TICKS_PER_US; the answer is taken
and nothing else changes. That a frame's instruction is the step in which the transport answers its BusWrite is
the model's reading (log entry 10). Rests on R144, R150, R151, R152, R39. -/
def Obligations.AnsweredFrameStartsTheSettleDelay : Prop :=
  ∀ p ∈ frameInstrs, ∀ (s : State) (rest : List Input),
    s.pend = .write → s.cur.cmd = p.2.1 → s.inputs = .writeAnswer .ok :: rest →
    exec p.1 s = .next
      { s with
        inputs := rest
        pend := .none
        status := { s.status with phase := .wait }
        timer := s.cur.delayUs.toNat * Config.ticksPerUs }

/-- A command frame that the transport fails aborts the operation with TRANSPORT_ERROR. For each of the 11 command-
frame instructions, where its byte is the outstanding BusWrite and the transport's next answer is
TransportError(info), it answers the next state in which ERR = TRANSPORT_ERROR, TERR = info, VALID = 0, BUSY =
0, PHASE = IDLE and PEND = NONE; no delay and no read follow, and nothing else changes. That a frame's
instruction is the step in which the transport answers its BusWrite is the model's reading (log entry 10). Rests
on R144, R147, R183, R186. -/
def Obligations.FailedFrameAbortsTheOperation : Prop :=
  ∀ p ∈ frameInstrs, ∀ (s : State) (info : Word) (rest : List Input),
    s.pend = .write → s.cur.cmd = p.2.1 → s.inputs = .writeAnswer (.transportError info) :: rest →
    exec p.1 s = .next
      { s with
        inputs := rest
        pend := .none
        status := { s.status with err := .transportError, valid := false, busy := false, phase := .idle }
        terr := info }

/-- A command frame that the transport does not answer leaves the engine waiting. For each of the 11 command-frame
instructions, where the next input is no answer to a write, it answers the state itself; and where no agent acts
at all, a step answers the state itself. (How a frame runs where it is not outstanding is the model's choice,
log entry 11.) Rests on R196, R10, 60_exceptions.md section 8. -/
def Obligations.UnansweredFrameWaits : Prop :=
  (∀ p ∈ frameInstrs, ∀ s : State, (∀ (a : WriteAnswer) (rest : List Input), s.inputs ≠ .writeAnswer a :: rest) →
      exec p.1 s = .next s) ∧
    ∀ s : State, s.inputs = [] → step s = .next s

/-- In every reachable state a frame's settle delay is the one R150, R151 and R100 give its byte. For each command-
frame instruction with its delay (0x94: 1000 µs, 0x89: 10000 µs, the 9 mode codes: the mode table's), from every
state that meets the invariant, where its byte is the outstanding BusWrite and the answer is Ok, it answers a
next state in WAIT whose TIMER is exactly that delay times TICKS_PER_US. That a frame's instruction is the step
in which the transport answers its BusWrite is the model's reading (log entry 10). Rests on R150, R151, R152,
R100, R191, R210. -/
def Obligations.EachFrameHasItsSettleDelay : Prop :=
  ∀ p ∈ frameInstrs, ∀ (s : State) (rest : List Input), s.Inv →
    s.pend = .write → s.cur.cmd = p.2.1 → s.inputs = .writeAnswer .ok :: rest →
    ∃ t, exec p.1 s = .next t ∧ t.status.phase = .wait ∧ t.timer = p.2.2 * Config.ticksPerUs

/-- In WAIT a tick counts the timer down, and the tick that takes it to zero is the expiry. In PHASE = WAIT: with
TIMER above 1 a tick takes one from it and changes nothing else; with TIMER = 1 it leaves TIMER = 0, and for
CUR_OP = RESET BUSY = 0 and PHASE = IDLE, with ERR and VALID as they were, else PHASE = READ, PEND = READ and
the BusRead of 6 bytes from CUR_ADDR issued. In any other phase a tick changes nothing. That the expiry is in
the same step as the last tick, and that a tick outside WAIT leaves TIMER as it was (V7 of
93_implementation_defined.md lets it hold any value), is the model's reading (log entry 12). Rests on R145,
R191, R39. -/
def Obligations.SettleTimerCountsDownToExpiry : Prop :=
  ∀ (s : State) (rest : List Input), s.inputs = .tick :: rest →
    (s.status.phase = .wait → 1 < s.timer → step s = .next { s with inputs := rest, timer := s.timer - 1 }) ∧
    (s.status.phase = .wait → s.timer = 1 → s.cur.op = .reset →
      step s = .next
        { s with inputs := rest, timer := 0, status := { s.status with busy := false, phase := .idle } }) ∧
    (s.status.phase = .wait → s.timer = 1 → s.cur.op ≠ .reset →
      step s = .next
        { s with
          inputs := rest
          timer := 0
          status := { s.status with phase := .read }
          pend := .read
          issued := .busRead s.cur.addr 6 :: s.issued }) ∧
    (s.status.phase ≠ .wait → step s = .next { s with inputs := rest })

/-- The answer to the read stores its operation's result, or aborts with no result register changed. With PEND =
READ. TransportError(info): ERR = TRANSPORT_ERROR, TERR = info. Ok(b) with FrameValid(b) false: ERR =
CHECKSUM_ERROR. Ok(b) valid, CUR_OP = READ_SERIAL: SERIAL = SerialOf(b), VALID = 1. Ok(b) valid, CUR_OP =
READ_MEASUREMENT: RAW the two fields, TEMP and RH the bits of TempOf and RhOf, VALID = 1. In every case PEND =
NONE, BUSY = 0 and PHASE = IDLE, an error has VALID = 0, RXBUF takes an Ok frame, ERR is otherwise as it was,
and nothing else changes, all in one step. That RXBUF keeps the bytes of an invalid frame is the model's reading
(log entry 24): R146 writes RXBUF before the check, while R180, R182 and R186 list nothing of the frame among
what the error writes. Rests on R146, R147. -/
def Obligations.ReadAnswerCompletesOrAborts : Prop :=
  ∀ (s : State) (rest : List Input), s.pend = .read →
    (∀ info : Word, s.inputs = .readAnswer (.transportError info) :: rest →
      step s = .next
        { s with
          inputs := rest
          pend := .none
          status := { s.status with err := .transportError, valid := false, busy := false, phase := .idle }
          terr := info }) ∧
    ∀ b : Frame, s.inputs = .readAnswer (.ok b) :: rest →
      (frameValid b = false →
        step s = .next
          { s with
            inputs := rest
            pend := .none
            rxbuf := b
            status := { s.status with err := .checksumError, valid := false, busy := false, phase := .idle } }) ∧
      (frameValid b = true → s.cur.op = .readSerial →
        step s = .next
          { s with
            inputs := rest
            pend := .none
            rxbuf := b
            results := { s.results with serial := serialOf b }
            status := { s.status with valid := true, busy := false, phase := .idle } }) ∧
      (frameValid b = true → s.cur.op = .readMeasurement →
        ∃ r : Results,
          step s = .next
            { s with
              inputs := rest
              pend := .none
              rxbuf := b
              results := r
              status := { s.status with valid := true, busy := false, phase := .idle } } ∧
            r.serial = s.results.serial ∧
            r.tRaw = field0 b ∧
            r.hRaw = field1 b ∧
            r.tempHi ++ r.tempLo = tempOf (field0 b) ∧
            r.rhHi ++ r.rhLo = rhOf (field1 b))

/-- A transport answer with no request of its kind outstanding changes nothing. Where PEND is not WRITE an answer to
a write, and where PEND is not READ an answer to a read, is taken from the inputs and changes nothing; with PEND
= NONE, as after a block reset, that is every answer (R203). That an answer of the wrong kind counts as late is
the model's reading (log entry 15). Rests on R203, R41, 70_reset_and_hazards.md section 1. -/
def Obligations.LateAnswersAreDiscarded : Prop :=
  ∀ (s : State) (rest : List Input),
    (∀ a : WriteAnswer, s.pend ≠ .write → s.inputs = .writeAnswer a :: rest →
      step s = .next { s with inputs := rest }) ∧
    ∀ a : ReadAnswer, s.pend ≠ .read → s.inputs = .readAnswer a :: rest →
      step s = .next { s with inputs := rest }

/-- PHASE changes only by the transitions of R140. From every state that meets the invariant, a step that changes
PHASE takes one of R140's rows: IDLE to WRITE by a CMD write with OP 1, 3 or 4; WRITE to WAIT by an Ok answer;
WRITE to IDLE or READ to IDLE by a TransportError answer; WAIT to IDLE (CUR_OP = RESET) or to READ (else) by the
tick that takes TIMER from 1; READ to IDLE by an Ok answer; any phase to IDLE by block reset. Rests on R140,
R153, 42_bus_operations.md section 1. -/
def Obligations.PhaseMovesOnlyAsTabled : Prop :=
  ∀ (s t : State) (inp : Input) (rest : List Input), s.Inv → s.inputs = inp :: rest → step s = .next t →
    t.status.phase ≠ s.status.phase →
    (s.status.phase = .idle ∧ t.status.phase = .write ∧
      ∃ w : Word, inp = .host (.write 0x00 4 w) ∧ w.extractLsb' 0 4 ∈ [0x1#4, 0x3#4, 0x4#4]) ∨
    (s.status.phase = .write ∧ t.status.phase = .wait ∧ inp = .writeAnswer .ok) ∨
    (s.status.phase = .write ∧ t.status.phase = .idle ∧ ∃ info, inp = .writeAnswer (.transportError info)) ∨
    (s.status.phase = .wait ∧ t.status.phase = .idle ∧ inp = .tick ∧ s.timer = 1 ∧ s.cur.op = .reset) ∨
    (s.status.phase = .wait ∧ t.status.phase = .read ∧ inp = .tick ∧ s.timer = 1 ∧ s.cur.op ≠ .reset) ∨
    (s.status.phase = .read ∧ t.status.phase = .idle ∧ ∃ a, inp = .readAnswer a) ∨
    (t.status.phase = .idle ∧ inp = .blockReset)

/-- Only the transport's answer, the timer and block reset move an operation in progress. From every state that
meets the invariant with BUSY = 1, a step whose input is a host access, or an answer other than to the
outstanding request, or a tick outside WAIT, leaves PHASE, TIMER, PEND, RXBUF, the latches, ADDR, MODE, the
results, TERR, the requests issued, and BUSY, VALID, ERR and LAST_OP as they were. So nothing the transport or
the host does shortens the wait, and an engine whose transport never answers stays in WRITE or READ with BUSY =
1. That an answer of the wrong kind is ignored like a late one is the model's reading of R41 and R203 (log entry
15). That a tick outside WAIT leaves TIMER as it was is the model's too (log entry 12): R39 gives TIMER no
meaning there, and V7 of 93_implementation_defined.md lets it hold any value. Rests on R142, R145, R196, R185,
R41, R203, R39. -/
def Obligations.OperationInProgressRunsOnUntouched : Prop :=
  ∀ (s t : State) (inp : Input) (rest : List Input), s.Inv → s.status.busy = true →
    s.inputs = inp :: rest → step s = .next t →
    inp ≠ .blockReset →
    (inp = .tick → s.status.phase ≠ .wait) →
    (∀ a, inp = .writeAnswer a → s.status.phase ≠ .write) →
    (∀ a, inp = .readAnswer a → s.status.phase ≠ .read) →
    { t with inputs := [], hostReads := [], status := { t.status with ovr := false } } =
      { s with inputs := [], hostReads := [], status := { s.status with ovr := false } }

/-- A step issues at most one request: the frame of an accepted command, or the read after the wait. In every state
that meets the invariant, a step leaves the issued requests as they were, or adds one to them: a BusWrite to
ADDR of one of the 11 frames, with BUSY = 0 before and the input a CMD write, or a BusRead of 6 bytes from
CUR_ADDR, in WAIT with TIMER = 1, CUR_OP not RESET and the input a tick. Nothing is ever issued while a request
is outstanding, and no other step issues one, so no request is reissued. Rests on R61, R148, R143, R145, R71,
R82, R51. -/
def Obligations.RequestsAreIssuedInOrder : Prop :=
  ∀ (s t : State), s.Inv → step s = .next t → t.issued ≠ s.issued →
    s.pend = .none ∧
      ((∃ (w : Word) (rest : List Input) (b : Byte), s.inputs = .host (.write 0x00 4 w) :: rest ∧
          s.status.busy = false ∧ b ∈ commandFrameBytes ∧ t.issued = .busWrite s.addr b :: s.issued) ∨
        (∃ rest : List Input, s.inputs = .tick :: rest ∧ s.status.phase = .wait ∧ s.timer = 1 ∧
          s.cur.op ≠ .reset ∧ t.issued = .busRead s.cur.addr 6 :: s.issued))

/-- Only a successful READ_SERIAL writes SERIAL. In every state, a step that changes SERIAL is a block reset, or
takes a valid frame b as the answer to the read of a READ_SERIAL and leaves SERIAL = SerialOf(b). A host read of
offset 0x14 returns SERIAL, and a write there is ignored. Rests on R32. -/
def Obligations.SerialIsWrittenOnlyByItsRead : Prop :=
  (∀ s t : State, step s = .next t → t.results.serial ≠ s.results.serial →
      (∃ rest, s.inputs = .blockReset :: rest) ∨
      ∃ (b : Frame) (rest : List Input), s.inputs = .readAnswer (.ok b) :: rest ∧ s.pend = .read ∧
        s.cur.op = .readSerial ∧ frameValid b = true ∧ t.results.serial = serialOf b) ∧
    (∀ s : State, readWindow s 0x14 4 = s.results.serial) ∧
    (∀ (s : State) (v : Word) (rest : List Input), s.inputs = .host (.write 0x14 4 v) :: rest →
      step s = .next { s with inputs := rest }) ∧
    State.reset.results.serial = 0

/-- Only a successful READ_MEASUREMENT writes RAW, TEMP and RH. In every state, a step that changes the results
other than SERIAL is a block reset, or takes a valid frame b as the answer to the read of a READ_MEASUREMENT and
leaves RAW the fields of b and TEMP and RH their conversions, all from that one frame. Rests on R33, R34, R35,
R174. -/
def Obligations.MeasurementIsWrittenOnlyByItsRead : Prop :=
  ∀ s t : State, step s = .next t →
    { t.results with serial := 0 } ≠ { s.results with serial := 0 } →
    (∃ rest, s.inputs = .blockReset :: rest) ∨
    ∃ (b : Frame) (rest : List Input), s.inputs = .readAnswer (.ok b) :: rest ∧ s.pend = .read ∧
      s.cur.op = .readMeasurement ∧ frameValid b = true ∧
      t.results.tRaw = field0 b ∧
      t.results.hRaw = field1 b ∧
      t.results.tempHi ++ t.results.tempLo = tempOf (field0 b) ∧
      t.results.rhHi ++ t.results.rhLo = rhOf (field1 b)

/-- Only an abort with TRANSPORT_ERROR writes TERR, with the transport's information unchanged. In every state, a
step that changes TERR is a block reset, or takes TransportError(info) as the answer to the outstanding request
and leaves TERR = info, ERR = TRANSPORT_ERROR and VALID = 0. Rests on R36, R183, R180. -/
def Obligations.TerrIsWrittenOnlyByTransportError : Prop :=
  ∀ s t : State, step s = .next t → t.terr ≠ s.terr →
    (∃ rest, s.inputs = .blockReset :: rest) ∨
    ∃ (info : Word) (rest : List Input),
      ((s.inputs = .writeAnswer (.transportError info) :: rest ∧ s.pend = .write) ∨
        (s.inputs = .readAnswer (.transportError info) :: rest ∧ s.pend = .read)) ∧
      t.terr = info ∧ t.status.err = .transportError ∧ t.status.valid = false

/-- Only a successful SET_MODE changes MODE and MODE_DELAY. In every state, a step that changes MODE or MODE_DELAY
is a block reset, or a CMD write while BUSY = 0 with OP = 2 whose ARG is a mode code, and leaves the mode
table's row of that code. In particular RESET does not (R108). Rests on R107, R23, R104, R108. -/
def Obligations.ModeChangesOnlyBySetMode : Prop :=
  ∀ s t : State, step s = .next t → t.mode ≠ s.mode →
    (∃ rest, s.inputs = .blockReset :: rest) ∨
    ∃ (w : Word) (rest : List Input), s.inputs = .host (.write 0x00 4 w) :: rest ∧ s.status.busy = false ∧
      w.extractLsb' 0 4 = 0x2#4 ∧ t.mode ∈ modeTable ∧ t.mode.code = w.extractLsb' 8 8

/-- OVR is set only by a CMD or ADDR write while busy and cleared only by CLEAR_OVR or block reset; ADDR is written
only while idle. In every state: a step that sets OVR is a word write to CMD or ADDR with BUSY = 1; a step that
clears it is a word write to STATUS with bit 7 = 1, or block reset; and a step that changes ADDR is a word write
to ADDR with BUSY = 0, which stores v[7:0], or block reset. That only a word write to CMD or ADDR sets OVR, and
no sub-word write while busy, is the model's reading of R52 beside R142 (log entry 22). Rests on R28, R22, R154,
R155, R185. -/
def Obligations.OvrAndAddrChangeOnlyByTheirWrites : Prop :=
  ∀ s t : State, step s = .next t →
    (s.status.ovr = false → t.status.ovr = true → s.status.busy = true ∧
      ∃ (off : Byte) (v : Word) (rest : List Input),
        s.inputs = .host (.write off 4 v) :: rest ∧ (off = 0x00 ∨ off = 0x08)) ∧
    (s.status.ovr = true → t.status.ovr = false → (∃ rest, s.inputs = .blockReset :: rest) ∨
      ∃ (v : Word) (rest : List Input), s.inputs = .host (.write 0x04 4 v) :: rest ∧ v.getLsbD 7 = true) ∧
    (t.addr ≠ s.addr → (∃ rest, s.inputs = .blockReset :: rest) ∨
      s.status.busy = false ∧ ∃ (v : Word) (rest : List Input),
        s.inputs = .host (.write 0x08 4 v) :: rest ∧ t.addr = v.extractLsb' 0 8)

/-- BUSY, VALID, ERR and LAST_OP change only by the events of R45 and R29. From every state that meets the
invariant, in one step: VALID rises only with a valid frame as the answer to the outstanding read, and falls
only with an accepted command (a CMD write while BUSY = 0) or block reset; ERR changes only with an accepted
command, block reset, or the failing step of an operation, which leaves BUSY = 0 and VALID = 0; LAST_OP changes
only with an accepted command, to its OP, or block reset; BUSY rises only with an accepted RESET, READ_SERIAL or
READ_MEASUREMENT; and BUSY falls only with a TransportError as the answer to the outstanding write, any answer
to the outstanding read, the tick that takes the timer of a RESET from 1 (the expiry, log entry 12), or block
reset. So ERR keeps its value until the next accepted command (R187). Rests on R45, R25, R26, R27, R29, R187,
R140. -/
def Obligations.FlagsChangeOnlyAsTabled : Prop :=
  ∀ s t : State, s.Inv → step s = .next t →
    let accepted : Prop :=
      s.status.busy = false ∧ ∃ (w : Word) (rest : List Input), s.inputs = .host (.write 0x00 4 w) :: rest
    let resets : Prop := ∃ rest, s.inputs = .blockReset :: rest
    (s.status.valid = false → t.status.valid = true →
      ∃ (b : Frame) (rest : List Input), s.inputs = .readAnswer (.ok b) :: rest ∧ s.pend = .read ∧
        frameValid b = true) ∧
    (s.status.valid = true → t.status.valid = false → accepted ∨ resets) ∧
    (t.status.err ≠ s.status.err → accepted ∨ resets ∨
      (s.pend ≠ .none ∧ t.status.busy = false ∧ t.status.valid = false ∧
        (t.status.err = .transportError ∨ t.status.err = .checksumError))) ∧
    (t.status.lastOp ≠ s.status.lastOp → resets ∨
      (s.status.busy = false ∧ ∃ (w : Word) (rest : List Input),
        s.inputs = .host (.write 0x00 4 w) :: rest ∧ t.status.lastOp = w.extractLsb' 0 4)) ∧
    (s.status.busy = false → t.status.busy = true → ∃ (w : Word) (rest : List Input),
      s.inputs = .host (.write 0x00 4 w) :: rest ∧ w.extractLsb' 0 4 ∈ [0x1#4, 0x3#4, 0x4#4]) ∧
    (s.status.busy = true → t.status.busy = false → resets ∨
      (s.pend = .write ∧ ∃ (info : Word) (rest : List Input), s.inputs = .writeAnswer (.transportError info) :: rest) ∨
      (s.pend = .read ∧ ∃ (a : ReadAnswer) (rest : List Input), s.inputs = .readAnswer a :: rest) ∨
      (s.status.phase = .wait ∧ s.timer = 1 ∧ s.cur.op = .reset ∧ ∃ rest, s.inputs = .tick :: rest))

/-- A result that STATUS announces stays in the result registers until a command word or block reset. In every state
that meets the invariant and has BUSY = 0, VALID = 1 and LAST_OP = op, a step whose input is neither a word
write to CMD nor a block reset leaves BUSY = 0, VALID = 1, LAST_OP = op, the result registers and the mode
unchanged. So reads that follow each other without a CMD write see one result. Rests on R206, R207, R26, R56. -/
def Obligations.ResultStaysUntilTheNextCommand : Prop :=
  ∀ (s t : State) (op : BitVec 4), s.Inv → s.resultOf op → step s = .next t →
    (∀ (w : Word) (rest : List Input), s.inputs ≠ .host (.write 0x00 4 w) :: rest) →
    (∀ rest, s.inputs ≠ .blockReset :: rest) →
    t.resultOf op ∧ t.results = s.results ∧ t.mode = s.mode

/-- The state after block reset meets the invariant. State.reset meets State.Inv: the mode is a row of the table,
BUSY agrees with PHASE, PEND with PHASE, and so on. Rests on R43, R107, R25, R41. -/
def Obligations.ResetMeetsTheInvariant : Prop :=
  State.reset.Inv

/-- Every step keeps the invariant of the reachable states. From every state that meets the invariant, whatever the
next input, the next state meets it: MODE.CODE is one of the 9 codes and INDEX and MODE_DELAY agree with it
(R107); BUSY = 1 exactly when PHASE is not IDLE (R25); PEND agrees with PHASE (R41); while busy the latches hold
the operation in progress, with its frame and delay, and VALID = 0 and ERR = NONE; in WAIT the timer is between
1 and its load (R39); VALID = 1 only after READ_SERIAL or READ_MEASUREMENT with ERR = NONE (R26); each ERR value
only after a command that raises it (R180); and every request ever issued is one of the 11 frames or a 6-byte
read, the outstanding one the last (R82, R58, R61). Rests on R107, R25, R41, R38, R29, R26, R27, R180, R82, R58,
R61, R39. -/
def Obligations.EveryStepKeepsTheInvariant : Prop :=
  ∀ s t : State, s.Inv → step s = .next t → t.Inv

/-- From every state that meets the invariant, each step answers a next state. No step of the machine from a state
that meets the invariant ends in a fault or a refusal, whatever the input: the block has no trap path to the
host (R52), and every word has a defined effect. With the statement that every step keeps the invariant, no run
from reset ever stops. Rests on R189, R52, R153, 60_exceptions.md section 4. -/
def Obligations.InvariantStatesNeverStop : Prop :=
  ∀ s : State, s.Inv → ∃ t, step s = .next t

/-- The CRC masked at every shift equals the document's CRC masked only at the end, on all inputs. For all bytes d0
and d1, crc8 (8-bit accumulator) equals the form that keeps an unbounded accumulator, tests its bit 7 and masks
to 8 bits after both bytes. Rests on R121. -/
def Obligations.MaskingEarlyGivesTheSameChecksum : Prop :=
  ∀ d0 d1 : Byte, crc8 d0 d1 = crc8MaskedAtEnd d0 d1

/-- A frame is valid exactly when both its checksums match, and flipping any one bit of a field or of a valid frame
is detected. FrameValid(b) holds exactly when crc8(b0, b1) = b2 and crc8(b3, b4) = b5. The checksums of (0x00,
0x00), (0xFF, 0xFF) and (0xBE, 0xEF) are 0x81, 0xAC and 0x92; the frame BE EF 92 00 00 81 is valid, and the
frames of all 0x00 and of all 0xFF bytes are not. For every field and each of its 16 bits, flipping that bit
changes crc8; and for every valid frame and each of its 48 bits (data and checksum bytes), the frame with that
bit flipped is invalid. Rests on R128, R123. -/
def Obligations.FlippedBitInvalidatesAFrame : Prop :=
  (∀ b : Frame, frameValid b = true ↔ crc8 b.b0 b.b1 = b.b2 ∧ crc8 b.b3 b.b4 = b.b5) ∧
    (crc8 0x00 0x00 = 0x81 ∧ crc8 0xFF 0xFF = 0xAC ∧ crc8 0xBE 0xEF = 0x92) ∧
    (frameValid ⟨0xBE, 0xEF, 0x92, 0x00, 0x00, 0x81⟩ = true ∧
      frameValid ⟨0x00, 0x00, 0x00, 0x00, 0x00, 0x00⟩ = false ∧
      frameValid ⟨0xFF, 0xFF, 0xFF, 0xFF, 0xFF, 0xFF⟩ = false) ∧
    (∀ (d0 d1 : Byte) (k : Nat), k < 8 →
      crc8 (d0 ^^^ (1#8 <<< k)) d1 ≠ crc8 d0 d1 ∧ crc8 d0 (d1 ^^^ (1#8 <<< k)) ≠ crc8 d0 d1) ∧
    ∀ (b : Frame) (k : Nat), k < 48 → frameValid b = true → frameValid (flipBit b k) = false

/-- The two fields and the serial number are assembled high byte first, without the checksum bytes. For every frame:
Field0 is b0 * 256 + b1, Field1 is b3 * 256 + b4, and SerialOf is b0 * 2^24 + b1 * 2^16 + b3 * 2^8 + b4, as
unsigned numbers. Rests on R57, R125, R126. -/
def Obligations.FieldsAndSerialAreBigEndian : Prop :=
  ∀ b : Frame,
    (field0 b).toNat = b.b0.toNat * 256 + b.b1.toNat ∧
      (field1 b).toNat = b.b3.toNat * 256 + b.b4.toNat ∧
      (serialOf b).toNat = b.b0.toNat * 16777216 + b.b1.toNat * 65536 + b.b3.toNat * 256 + b.b4.toNat

/-- The endpoint values of the conversion are those of R175. TempOf(0) is -45.0, TempOf(0xFFFF) is 130.0, RhLin(0)
is -6.0, RhLin(0xFFFF) is 119.0, RhOf(0) is +0.0 and RhOf(0xFFFF) is 100.0, as the IEEE encodings of those
numbers; and TempOf(0x6666) is 25.0 and RhOf(0x6666) is 44.0. Rests on R175, R170, R171, 95_test_vectors.md
section 2.5. -/
def Obligations.ConversionEndpoints : Prop :=
  tempOf 0x0000 = 0xC046800000000000 ∧
    tempOf 0xFFFF = 0x4060400000000000 ∧
    rhLin 0x0000 = 0xC018000000000000 ∧
    rhLin 0xFFFF = 0x405DC00000000000 ∧
    rhOf 0x0000 = 0x0000000000000000 ∧
    rhOf 0xFFFF = 0x4059000000000000 ∧
    tempOf 0x6666 = 0x4039000000000000 ∧
    rhOf 0x6666 = 0x4046000000000000

/-- RhLin is below 0.0 exactly for h <= 3145 and above 100.0 exactly for h >= 55574, and RhOf clamps there. For
every 16-bit h: h <= 3145 exactly when RhLin(h) < 0.0, and then RhOf(h) is +0.0 (bits 0); h >= 55574 exactly
when RhLin(h) > 100.0, and then RhOf(h) is 100.0; between them RhOf(h) is RhLin(h). Rests on R171. -/
def Obligations.HumidityClampThresholds : Prop :=
  ∀ h : Half,
    (flt (rhLin h) (F64.ofNat 0) = true ↔ h.toNat ≤ 3145) ∧
      (flt (F64.ofNat 100) (rhLin h) = true ↔ 55574 ≤ h.toNat) ∧
      (h.toNat ≤ 3145 → rhOf h = 0x0000000000000000) ∧
      (55574 ≤ h.toNat → rhOf h = 0x4059000000000000) ∧
      (3145 < h.toNat → h.toNat < 55574 → rhOf h = rhLin h)

/-- TempOf increases strictly from -45.0 to 130.0, stays in that range, and is never zero, subnormal, infinite or
NaN. For all 16-bit t < u, TempOf(t) < TempOf(u) as numbers, so TempOf never decreases and no two raw values
share a temperature, as a clamp would make them; TempOf(0) is -45.0 and TempOf(0xFFFF) is 130.0 (their
encodings); every TempOf(t) lies between the numbers -45 and 130 (in units of 2^-1074), its biased exponent is
neither 0 (zero or subnormal) nor 2047 (infinity or NaN). Rests on R170, R173. -/
def Obligations.TemperatureIsMonotoneAndFinite : Prop :=
  (∀ t u : Half, t.toNat < u.toNat → (tempOf t).units < (tempOf u).units) ∧
    (tempOf 0x0000 = 0xC046800000000000 ∧ tempOf 0xFFFF = 0x4060400000000000) ∧
    ∀ t : Half,
      -(45 * (1 <<< 1074 : Nat) : Int) ≤ (tempOf t).units ∧
      (tempOf t).units ≤ (130 * (1 <<< 1074 : Nat) : Int) ∧
      (tempOf t).extractLsb' 52 11 ≠ 0 ∧
      (tempOf t).extractLsb' 52 11 ≠ 2047

/-- The rounding behind fmul, fdiv and fadd is correct: nearest binary64 number, ties to even. For every quotient n
/ d whose rounding is finite, no finite binary64 magnitude m is nearer to n / d than the rounded one, and where
another value is equally near the rounded encoding is even. (Magnitudes as the lower 63 bits of an encoding;
values in units of 2^-1074, so that the distance of m to n / d times d is |magUnits m * d - n * 2^1074|.) Rests
on R8, 92_eei_decisions.md D18. -/
def Obligations.RoundingIsNearestTiesToEven : Prop :=
  ∀ n d m : Nat, 0 < d → roundMag n d < 0x7FF <<< 52 → m < 0x7FF <<< 52 →
    let error (k : Nat) : Nat := ((magUnits k * d : Int) - (n * (1 <<< 1074 : Nat) : Int)).natAbs
    error (roundMag n d) ≤ error m ∧
      (error (roundMag n d) = error m → m ≠ roundMag n d → roundMag n d % 2 = 0)

/-- A RESET whose write is answered Ok ends after exactly 1000 µs of ticks, with no read. From every idle state that
meets the invariant, a CMD write with OP 1, an Ok answer and 1000 * TICKS_PER_US ticks take the machine to BUSY
= 0, PHASE = IDLE, ERR = NONE, VALID = 0, LAST_OP = 1, OVR as it was, with the mode, the address, the results,
TERR and what the host has read unchanged, PEND = NONE, the rest of the inputs still to come, and one request
issued: the BusWrite of 0x94. Rests on R150, R145, R191, R210, 95_test_vectors.md B1. -/
def Obligations.ResetCommandRunsToItsEnd : Prop :=
  ∀ (s : State) (w : Word) (rest : List Input), s.Inv → s.status.phase = .idle → w.extractLsb' 0 4 = 0x1#4 →
    s.inputs = .host (.write 0x00 4 w) :: .writeAnswer .ok ::
      (List.replicate (1000 * Config.ticksPerUs) .tick ++ rest) →
    ∃ t : State,
      Sys2Proof.core.run (2 + 1000 * Config.ticksPerUs) s = .next t ∧
      t.status = ⟨false, false, .none, s.status.ovr, 0x1, .idle⟩ ∧
      t.addr = s.addr ∧
      t.mode = s.mode ∧
      t.results = s.results ∧
      t.terr = s.terr ∧
      t.pend = .none ∧
      t.inputs = rest ∧
      t.hostReads = s.hostReads ∧
      t.issued = .busWrite s.addr 0x94 :: s.issued

/-- A READ_SERIAL whose transport answers with a valid frame ends with the serial number. From every idle state that
meets the invariant, a CMD write with OP 3, an Ok answer, 10000 * TICKS_PER_US ticks and a valid frame b take
the machine to BUSY = 0, PHASE = IDLE, VALID = 1, ERR = NONE, LAST_OP = 3, with SERIAL = SerialOf(b), the other
results, the mode, the address and TERR unchanged, and exactly two requests issued: the BusWrite of 0x89 and
after it the BusRead of 6 bytes. Rests on R151, R144, R145, R146, R126, 95_test_vectors.md B3. -/
def Obligations.ReadSerialRunsToItsResult : Prop :=
  ∀ (s : State) (w : Word) (b : Frame) (rest : List Input), s.Inv → s.status.phase = .idle →
    w.extractLsb' 0 4 = 0x3#4 → frameValid b = true →
    s.inputs = .host (.write 0x00 4 w) :: .writeAnswer .ok ::
      (List.replicate (10000 * Config.ticksPerUs) .tick ++ .readAnswer (.ok b) :: rest) →
    ∃ t : State,
      Sys2Proof.core.run (3 + 10000 * Config.ticksPerUs) s = .next t ∧
      t.status = ⟨false, true, .none, s.status.ovr, 0x3, .idle⟩ ∧
      t.addr = s.addr ∧
      t.mode = s.mode ∧
      t.results = { s.results with serial := serialOf b } ∧
      t.terr = s.terr ∧
      t.pend = .none ∧
      t.inputs = rest ∧
      t.hostReads = s.hostReads ∧
      t.issued = .busRead s.addr 6 :: .busWrite s.addr 0x89 :: s.issued

/-- A READ_MEASUREMENT in any mode whose transport answers with a valid frame ends with the converted values. From
every idle state that meets the invariant, a CMD write with OP 4, an Ok answer, MODE_DELAY * TICKS_PER_US ticks
and a valid frame b take the machine to BUSY = 0, PHASE = IDLE, VALID = 1, ERR = NONE, LAST_OP = 4, with RAW the
two fields of b, TEMP and RH the bits of TempOf and RhOf of them, SERIAL, the mode, the address and TERR
unchanged, and exactly two requests issued: the BusWrite of the mode code and after it the BusRead of 6 bytes.
Rests on R152, R144, R145, R146, R170, R171, R174, R209, 95_test_vectors.md B6. -/
def Obligations.ReadMeasurementRunsToItsResult : Prop :=
  ∀ (s : State) (w : Word) (b : Frame) (rest : List Input), s.Inv → s.status.phase = .idle →
    w.extractLsb' 0 4 = 0x4#4 → frameValid b = true →
    s.inputs = .host (.write 0x00 4 w) :: .writeAnswer .ok ::
      (List.replicate (s.mode.delayUs.toNat * Config.ticksPerUs) .tick ++ .readAnswer (.ok b) :: rest) →
    ∃ t : State,
      Sys2Proof.core.run (3 + s.mode.delayUs.toNat * Config.ticksPerUs) s = .next t ∧
      t.status = ⟨false, true, .none, s.status.ovr, 0x4, .idle⟩ ∧
      t.addr = s.addr ∧
      t.mode = s.mode ∧
      t.results.serial = s.results.serial ∧
      t.results.tRaw = field0 b ∧
      t.results.hRaw = field1 b ∧
      t.results.tempHi ++ t.results.tempLo = tempOf (field0 b) ∧
      t.results.rhHi ++ t.results.rhLo = rhOf (field1 b) ∧
      t.terr = s.terr ∧
      t.pend = .none ∧
      t.inputs = rest ∧
      t.hostReads = s.hostReads ∧
      t.issued = .busRead s.addr 6 :: .busWrite s.addr s.mode.code :: s.issued
end

