-- ==== Sys2Proof/Laws/State.lean ====
section
/-! SUPPORT. One lemma per field per update of the state, each true by definition, so that no proof unfolds an
update. -/

namespace Sys2Proof.Machine

variable (s : State)

/-! `withInputs` -/

@[simp] theorem withInputs_status (inputs : List Input) : (s.withInputs inputs).status = s.status := rfl
@[simp] theorem withInputs_addr (inputs : List Input) : (s.withInputs inputs).addr = s.addr := rfl
@[simp] theorem withInputs_mode (inputs : List Input) : (s.withInputs inputs).mode = s.mode := rfl
@[simp] theorem withInputs_results (inputs : List Input) : (s.withInputs inputs).results = s.results := rfl
@[simp] theorem withInputs_terr (inputs : List Input) : (s.withInputs inputs).terr = s.terr := rfl
@[simp] theorem withInputs_cur (inputs : List Input) : (s.withInputs inputs).cur = s.cur := rfl
@[simp] theorem withInputs_timer (inputs : List Input) : (s.withInputs inputs).timer = s.timer := rfl
@[simp] theorem withInputs_rxbuf (inputs : List Input) : (s.withInputs inputs).rxbuf = s.rxbuf := rfl
@[simp] theorem withInputs_pend (inputs : List Input) : (s.withInputs inputs).pend = s.pend := rfl
@[simp] theorem withInputs_inputs (inputs : List Input) : (s.withInputs inputs).inputs = inputs := rfl
@[simp] theorem withInputs_hostReads (inputs : List Input) : (s.withInputs inputs).hostReads = s.hostReads := rfl
@[simp] theorem withInputs_issued (inputs : List Input) : (s.withInputs inputs).issued = s.issued := rfl

/-! `accept` -/

@[simp] theorem accept_status (op : BitVec 4) :
    (accept op s).status =
      { s.status with lastOp := op, valid := false, err := .none } := rfl
@[simp] theorem accept_addr (op : BitVec 4) : (accept op s).addr = s.addr := rfl
@[simp] theorem accept_mode (op : BitVec 4) : (accept op s).mode = s.mode := rfl
@[simp] theorem accept_results (op : BitVec 4) : (accept op s).results = s.results := rfl
@[simp] theorem accept_terr (op : BitVec 4) : (accept op s).terr = s.terr := rfl
@[simp] theorem accept_cur (op : BitVec 4) : (accept op s).cur = s.cur := rfl
@[simp] theorem accept_timer (op : BitVec 4) : (accept op s).timer = s.timer := rfl
@[simp] theorem accept_rxbuf (op : BitVec 4) : (accept op s).rxbuf = s.rxbuf := rfl
@[simp] theorem accept_pend (op : BitVec 4) : (accept op s).pend = s.pend := rfl
@[simp] theorem accept_inputs (op : BitVec 4) : (accept op s).inputs = s.inputs := rfl
@[simp] theorem accept_hostReads (op : BitVec 4) : (accept op s).hostReads = s.hostReads := rfl
@[simp] theorem accept_issued (op : BitVec 4) : (accept op s).issued = s.issued := rfl

/-! `overrun` -/

@[simp] theorem overrun_status : (overrun s).status = { s.status with ovr := true } := rfl
@[simp] theorem overrun_addr : (overrun s).addr = s.addr := rfl
@[simp] theorem overrun_mode : (overrun s).mode = s.mode := rfl
@[simp] theorem overrun_results : (overrun s).results = s.results := rfl
@[simp] theorem overrun_terr : (overrun s).terr = s.terr := rfl
@[simp] theorem overrun_cur : (overrun s).cur = s.cur := rfl
@[simp] theorem overrun_timer : (overrun s).timer = s.timer := rfl
@[simp] theorem overrun_rxbuf : (overrun s).rxbuf = s.rxbuf := rfl
@[simp] theorem overrun_pend : (overrun s).pend = s.pend := rfl
@[simp] theorem overrun_inputs : (overrun s).inputs = s.inputs := rfl
@[simp] theorem overrun_hostReads : (overrun s).hostReads = s.hostReads := rfl
@[simp] theorem overrun_issued : (overrun s).issued = s.issued := rfl

/-! `clearOverrun` -/

@[simp] theorem clearOverrun_status : (clearOverrun s).status = { s.status with ovr := false } := rfl
@[simp] theorem clearOverrun_addr : (clearOverrun s).addr = s.addr := rfl
@[simp] theorem clearOverrun_mode : (clearOverrun s).mode = s.mode := rfl
@[simp] theorem clearOverrun_results : (clearOverrun s).results = s.results := rfl
@[simp] theorem clearOverrun_terr : (clearOverrun s).terr = s.terr := rfl
@[simp] theorem clearOverrun_cur : (clearOverrun s).cur = s.cur := rfl
@[simp] theorem clearOverrun_timer : (clearOverrun s).timer = s.timer := rfl
@[simp] theorem clearOverrun_rxbuf : (clearOverrun s).rxbuf = s.rxbuf := rfl
@[simp] theorem clearOverrun_pend : (clearOverrun s).pend = s.pend := rfl
@[simp] theorem clearOverrun_inputs : (clearOverrun s).inputs = s.inputs := rfl
@[simp] theorem clearOverrun_hostReads : (clearOverrun s).hostReads = s.hostReads := rfl
@[simp] theorem clearOverrun_issued : (clearOverrun s).issued = s.issued := rfl

/-! `completeWithValue` -/

@[simp] theorem completeWithValue_status :
    (completeWithValue s).status =
      { s.status with valid := true, busy := false, phase := .idle } := rfl
@[simp] theorem completeWithValue_addr : (completeWithValue s).addr = s.addr := rfl
@[simp] theorem completeWithValue_mode : (completeWithValue s).mode = s.mode := rfl
@[simp] theorem completeWithValue_results : (completeWithValue s).results = s.results := rfl
@[simp] theorem completeWithValue_terr : (completeWithValue s).terr = s.terr := rfl
@[simp] theorem completeWithValue_cur : (completeWithValue s).cur = s.cur := rfl
@[simp] theorem completeWithValue_timer : (completeWithValue s).timer = s.timer := rfl
@[simp] theorem completeWithValue_rxbuf : (completeWithValue s).rxbuf = s.rxbuf := rfl
@[simp] theorem completeWithValue_pend : (completeWithValue s).pend = s.pend := rfl
@[simp] theorem completeWithValue_inputs : (completeWithValue s).inputs = s.inputs := rfl
@[simp] theorem completeWithValue_hostReads : (completeWithValue s).hostReads = s.hostReads := rfl
@[simp] theorem completeWithValue_issued : (completeWithValue s).issued = s.issued := rfl

/-! `hostRead` -/

@[simp] theorem hostRead_status (off : Byte) (width : Nat) : (hostRead off width s).status = s.status := rfl
@[simp] theorem hostRead_addr (off : Byte) (width : Nat) : (hostRead off width s).addr = s.addr := rfl
@[simp] theorem hostRead_mode (off : Byte) (width : Nat) : (hostRead off width s).mode = s.mode := rfl
@[simp] theorem hostRead_results (off : Byte) (width : Nat) : (hostRead off width s).results = s.results := rfl
@[simp] theorem hostRead_terr (off : Byte) (width : Nat) : (hostRead off width s).terr = s.terr := rfl
@[simp] theorem hostRead_cur (off : Byte) (width : Nat) : (hostRead off width s).cur = s.cur := rfl
@[simp] theorem hostRead_timer (off : Byte) (width : Nat) : (hostRead off width s).timer = s.timer := rfl
@[simp] theorem hostRead_rxbuf (off : Byte) (width : Nat) : (hostRead off width s).rxbuf = s.rxbuf := rfl
@[simp] theorem hostRead_pend (off : Byte) (width : Nat) : (hostRead off width s).pend = s.pend := rfl
@[simp] theorem hostRead_inputs (off : Byte) (width : Nat) : (hostRead off width s).inputs = s.inputs := rfl
@[simp] theorem hostRead_hostReads (off : Byte) (width : Nat) :
    (hostRead off width s).hostReads =
      readWindow s off width :: s.hostReads := rfl
@[simp] theorem hostRead_issued (off : Byte) (width : Nat) : (hostRead off width s).issued = s.issued := rfl

/-! `raiseError` -/

@[simp] theorem raiseError_status (e : OpError) :
    (raiseError e s).status =
      { s.status with err := e.kind, valid := false, busy := false, phase := .idle } := rfl
@[simp] theorem raiseError_addr (e : OpError) : (raiseError e s).addr = s.addr := rfl
@[simp] theorem raiseError_mode (e : OpError) : (raiseError e s).mode = s.mode := rfl
@[simp] theorem raiseError_results (e : OpError) : (raiseError e s).results = s.results := rfl
@[simp] theorem raiseError_terr (e : OpError) : (raiseError e s).terr = e.terr s.terr := rfl
@[simp] theorem raiseError_cur (e : OpError) : (raiseError e s).cur = s.cur := rfl
@[simp] theorem raiseError_timer (e : OpError) : (raiseError e s).timer = s.timer := rfl
@[simp] theorem raiseError_rxbuf (e : OpError) : (raiseError e s).rxbuf = s.rxbuf := rfl
@[simp] theorem raiseError_pend (e : OpError) : (raiseError e s).pend = .none := rfl
@[simp] theorem raiseError_inputs (e : OpError) : (raiseError e s).inputs = s.inputs := rfl
@[simp] theorem raiseError_hostReads (e : OpError) : (raiseError e s).hostReads = s.hostReads := rfl
@[simp] theorem raiseError_issued (e : OpError) : (raiseError e s).issued = s.issued := rfl

/-! `start` -/

@[simp] theorem start_status (op : BusOp) (cmd : Byte) (us : Word) :
    (start op cmd us s).status =
      { s.status with busy := true, phase := .write } := rfl
@[simp] theorem start_addr (op : BusOp) (cmd : Byte) (us : Word) : (start op cmd us s).addr = s.addr := rfl
@[simp] theorem start_mode (op : BusOp) (cmd : Byte) (us : Word) : (start op cmd us s).mode = s.mode := rfl
@[simp] theorem start_results (op : BusOp) (cmd : Byte) (us : Word) :
    (start op cmd us s).results =
      s.results := rfl
@[simp] theorem start_terr (op : BusOp) (cmd : Byte) (us : Word) : (start op cmd us s).terr = s.terr := rfl
@[simp] theorem start_cur (op : BusOp) (cmd : Byte) (us : Word) :
    (start op cmd us s).cur =
      ⟨op, s.addr, cmd, us⟩ := rfl
@[simp] theorem start_timer (op : BusOp) (cmd : Byte) (us : Word) : (start op cmd us s).timer = s.timer := rfl
@[simp] theorem start_rxbuf (op : BusOp) (cmd : Byte) (us : Word) : (start op cmd us s).rxbuf = s.rxbuf := rfl
@[simp] theorem start_pend (op : BusOp) (cmd : Byte) (us : Word) : (start op cmd us s).pend = .write := rfl
@[simp] theorem start_inputs (op : BusOp) (cmd : Byte) (us : Word) : (start op cmd us s).inputs = s.inputs := rfl
@[simp] theorem start_hostReads (op : BusOp) (cmd : Byte) (us : Word) :
    (start op cmd us s).hostReads =
      s.hostReads := rfl
@[simp] theorem start_issued (op : BusOp) (cmd : Byte) (us : Word) :
    (start op cmd us s).issued =
      .busWrite s.addr cmd :: s.issued := rfl

/-! `finishReset` -/

@[simp] theorem finishReset_status :
    (finishReset s).status =
      { s.status with busy := false, phase := .idle } := rfl
@[simp] theorem finishReset_addr : (finishReset s).addr = s.addr := rfl
@[simp] theorem finishReset_mode : (finishReset s).mode = s.mode := rfl
@[simp] theorem finishReset_results : (finishReset s).results = s.results := rfl
@[simp] theorem finishReset_terr : (finishReset s).terr = s.terr := rfl
@[simp] theorem finishReset_cur : (finishReset s).cur = s.cur := rfl
@[simp] theorem finishReset_timer : (finishReset s).timer = s.timer := rfl
@[simp] theorem finishReset_rxbuf : (finishReset s).rxbuf = s.rxbuf := rfl
@[simp] theorem finishReset_pend : (finishReset s).pend = s.pend := rfl
@[simp] theorem finishReset_inputs : (finishReset s).inputs = s.inputs := rfl
@[simp] theorem finishReset_hostReads : (finishReset s).hostReads = s.hostReads := rfl
@[simp] theorem finishReset_issued : (finishReset s).issued = s.issued := rfl

/-! `startRead` -/

@[simp] theorem startRead_status : (startRead s).status = { s.status with phase := .read } := rfl
@[simp] theorem startRead_addr : (startRead s).addr = s.addr := rfl
@[simp] theorem startRead_mode : (startRead s).mode = s.mode := rfl
@[simp] theorem startRead_results : (startRead s).results = s.results := rfl
@[simp] theorem startRead_terr : (startRead s).terr = s.terr := rfl
@[simp] theorem startRead_cur : (startRead s).cur = s.cur := rfl
@[simp] theorem startRead_timer : (startRead s).timer = s.timer := rfl
@[simp] theorem startRead_rxbuf : (startRead s).rxbuf = s.rxbuf := rfl
@[simp] theorem startRead_pend : (startRead s).pend = .read := rfl
@[simp] theorem startRead_inputs : (startRead s).inputs = s.inputs := rfl
@[simp] theorem startRead_hostReads : (startRead s).hostReads = s.hostReads := rfl
@[simp] theorem startRead_issued : (startRead s).issued = .busRead s.cur.addr 6 :: s.issued := rfl

/-! `storeSerial` -/

@[simp] theorem storeSerial_status (b : Frame) : (storeSerial b s).status = s.status := rfl
@[simp] theorem storeSerial_addr (b : Frame) : (storeSerial b s).addr = s.addr := rfl
@[simp] theorem storeSerial_mode (b : Frame) : (storeSerial b s).mode = s.mode := rfl
@[simp] theorem storeSerial_results (b : Frame) :
    (storeSerial b s).results =
      { s.results with serial := serialOf b } := rfl
@[simp] theorem storeSerial_terr (b : Frame) : (storeSerial b s).terr = s.terr := rfl
@[simp] theorem storeSerial_cur (b : Frame) : (storeSerial b s).cur = s.cur := rfl
@[simp] theorem storeSerial_timer (b : Frame) : (storeSerial b s).timer = s.timer := rfl
@[simp] theorem storeSerial_rxbuf (b : Frame) : (storeSerial b s).rxbuf = s.rxbuf := rfl
@[simp] theorem storeSerial_pend (b : Frame) : (storeSerial b s).pend = s.pend := rfl
@[simp] theorem storeSerial_inputs (b : Frame) : (storeSerial b s).inputs = s.inputs := rfl
@[simp] theorem storeSerial_hostReads (b : Frame) : (storeSerial b s).hostReads = s.hostReads := rfl
@[simp] theorem storeSerial_issued (b : Frame) : (storeSerial b s).issued = s.issued := rfl

/-! `receive` -/

@[simp] theorem receive_status (b : Frame) : (receive b s).status = s.status := rfl
@[simp] theorem receive_addr (b : Frame) : (receive b s).addr = s.addr := rfl
@[simp] theorem receive_mode (b : Frame) : (receive b s).mode = s.mode := rfl
@[simp] theorem receive_results (b : Frame) : (receive b s).results = s.results := rfl
@[simp] theorem receive_terr (b : Frame) : (receive b s).terr = s.terr := rfl
@[simp] theorem receive_cur (b : Frame) : (receive b s).cur = s.cur := rfl
@[simp] theorem receive_timer (b : Frame) : (receive b s).timer = s.timer := rfl
@[simp] theorem receive_rxbuf (b : Frame) : (receive b s).rxbuf = b := rfl
@[simp] theorem receive_pend (b : Frame) : (receive b s).pend = .none := rfl
@[simp] theorem receive_inputs (b : Frame) : (receive b s).inputs = s.inputs := rfl
@[simp] theorem receive_hostReads (b : Frame) : (receive b s).hostReads = s.hostReads := rfl
@[simp] theorem receive_issued (b : Frame) : (receive b s).issued = s.issued := rfl

/-! `setAddr` -/

@[simp] theorem setAddr_status (a : Byte) : (setAddr a s).status = s.status := rfl
@[simp] theorem setAddr_addr (a : Byte) : (setAddr a s).addr = a := rfl
@[simp] theorem setAddr_mode (a : Byte) : (setAddr a s).mode = s.mode := rfl
@[simp] theorem setAddr_results (a : Byte) : (setAddr a s).results = s.results := rfl
@[simp] theorem setAddr_terr (a : Byte) : (setAddr a s).terr = s.terr := rfl
@[simp] theorem setAddr_cur (a : Byte) : (setAddr a s).cur = s.cur := rfl
@[simp] theorem setAddr_timer (a : Byte) : (setAddr a s).timer = s.timer := rfl
@[simp] theorem setAddr_rxbuf (a : Byte) : (setAddr a s).rxbuf = s.rxbuf := rfl
@[simp] theorem setAddr_pend (a : Byte) : (setAddr a s).pend = s.pend := rfl
@[simp] theorem setAddr_inputs (a : Byte) : (setAddr a s).inputs = s.inputs := rfl
@[simp] theorem setAddr_hostReads (a : Byte) : (setAddr a s).hostReads = s.hostReads := rfl
@[simp] theorem setAddr_issued (a : Byte) : (setAddr a s).issued = s.issued := rfl

/-! `storeMeasurement`: its new results are in `storeMeasurement_results`. -/

@[simp] theorem storeMeasurement_results (b : Frame) :
    (storeMeasurement b s).results =
      { serial := s.results.serial
        tRaw := field0 b
        hRaw := field1 b
        tempLo := (tempOf (field0 b)).extractLsb' 0 32
        tempHi := (tempOf (field0 b)).extractLsb' 32 32
        rhLo := (rhOf (field1 b)).extractLsb' 0 32
        rhHi := (rhOf (field1 b)).extractLsb' 32 32 } := rfl
@[simp] theorem storeMeasurement_status (b : Frame) : (storeMeasurement b s).status = s.status := rfl
@[simp] theorem storeMeasurement_addr (b : Frame) : (storeMeasurement b s).addr = s.addr := rfl
@[simp] theorem storeMeasurement_mode (b : Frame) : (storeMeasurement b s).mode = s.mode := rfl
@[simp] theorem storeMeasurement_terr (b : Frame) : (storeMeasurement b s).terr = s.terr := rfl
@[simp] theorem storeMeasurement_cur (b : Frame) : (storeMeasurement b s).cur = s.cur := rfl
@[simp] theorem storeMeasurement_timer (b : Frame) : (storeMeasurement b s).timer = s.timer := rfl
@[simp] theorem storeMeasurement_rxbuf (b : Frame) : (storeMeasurement b s).rxbuf = s.rxbuf := rfl
@[simp] theorem storeMeasurement_pend (b : Frame) : (storeMeasurement b s).pend = s.pend := rfl
@[simp] theorem storeMeasurement_inputs (b : Frame) : (storeMeasurement b s).inputs = s.inputs := rfl
@[simp] theorem storeMeasurement_hostReads (b : Frame) : (storeMeasurement b s).hostReads = s.hostReads := rfl
@[simp] theorem storeMeasurement_issued (b : Frame) : (storeMeasurement b s).issued = s.issued := rfl

/-! `blockReset`: the model's own fields stay and the block's take their reset values. -/

@[simp] theorem blockReset_status : (blockReset s).status = State.reset.status := rfl
@[simp] theorem blockReset_addr : (blockReset s).addr = State.reset.addr := rfl
@[simp] theorem blockReset_mode : (blockReset s).mode = State.reset.mode := rfl
@[simp] theorem blockReset_results : (blockReset s).results = State.reset.results := rfl
@[simp] theorem blockReset_terr : (blockReset s).terr = State.reset.terr := rfl
@[simp] theorem blockReset_cur : (blockReset s).cur = State.reset.cur := rfl
@[simp] theorem blockReset_timer : (blockReset s).timer = State.reset.timer := rfl
@[simp] theorem blockReset_rxbuf : (blockReset s).rxbuf = State.reset.rxbuf := rfl
@[simp] theorem blockReset_pend : (blockReset s).pend = State.reset.pend := rfl
@[simp] theorem blockReset_inputs : (blockReset s).inputs = s.inputs := rfl
@[simp] theorem blockReset_hostReads : (blockReset s).hostReads = s.hostReads := rfl
@[simp] theorem blockReset_issued : (blockReset s).issued = s.issued := rfl

end Sys2Proof.Machine
end

