-- ==== Sys2Proof/Laws/Ops.lean ====
section
/-! SUPPORT. What each shared operation can do: one lemma per case of an operation, and the mode table's lookups. -/

namespace Sys2Proof.Machine

/-! The mode table (R100 to R103). -/

theorem lookupMode_mem {c : Byte} {m : Mode} (h : lookupMode c = some m) : m ∈ modeTable ∧ m.code = c := by
  have hm := List.mem_of_find?_eq_some h
  have hc := List.find?_some h
  exact ⟨hm, by simpa using hc⟩

theorem lookupMode_of_mem {m : Mode} (h : m ∈ modeTable) : lookupMode m.code = some m := by
  revert m
  decide

theorem lookupMode_eq_none {c : Byte} : lookupMode c = none ↔ ∀ m ∈ modeTable, m.code ≠ c := by
  simp [lookupMode]

theorem modeDelayUs_of_mem {m : Mode} (h : m ∈ modeTable) : modeDelayUs m.code = m.delayUs := by
  simp [modeDelayUs, lookupMode_of_mem h]

/-! The host writes that BUSY guards (R142). -/

theorem whileIdle_busy {s : State} {f : State → State} (h : s.status.busy = true) : whileIdle f s = overrun s := by
  simp [whileIdle, h]

theorem whileIdle_idle {s : State} {f : State → State} (h : s.status.busy = false) : whileIdle f s = f s := by
  simp [whileIdle, h]

/-! SET_MODE (R104). -/

theorem setMode_valid {s : State} {code : Byte} {m : Mode} (h : lookupMode code = some m) :
    setMode code s = { accept 0x2 s with mode := m } := by
  simp [setMode, h]

theorem setMode_invalid {s : State} {code : Byte} (h : lookupMode code = none) :
    setMode code s = raiseError .invalidArgument (accept 0x2 s) := by
  simp [setMode, h]

/-! Timer expiry and ticks (R145, R191). -/

theorem expire_reset {s : State} (h : s.cur.op = .reset) : expire s = finishReset s := by
  simp [expire, h]

theorem expire_read {s : State} (h : s.cur.op ≠ .reset) : expire s = startRead s := by
  cases hop : s.cur.op <;> simp_all [expire]

theorem timerTick_outside {s : State} (h : s.status.phase ≠ .wait) : timerTick s = s := by
  cases hp : s.status.phase <;> simp_all [timerTick]

theorem timerTick_count {s : State} (h : s.status.phase = .wait) (ht : 1 < s.timer) :
    timerTick s = { s with timer := s.timer - 1 } := by
  have : ¬ s.timer ≤ 1 := by omega
  simp [timerTick, h, this]

theorem timerTick_expire {s : State} (h : s.status.phase = .wait) (ht : s.timer ≤ 1) :
    timerTick s = expire { s with timer := 0 } := by
  simp [timerTick, h, ht]

/-! The read's answer (R146). -/

/-- What the read's answer can leave behind. -/
theorem takeReadAnswer_next {a : ReadAnswer} {s t : State} (h : takeReadAnswer a s = .next t) :
    (∃ info, a = .transportError info ∧ t = raiseError (.transportError info) s) ∨
    (∃ b, a = .ok b ∧ frameValid b = false ∧ t = raiseError .checksumError (receive b s)) ∨
    (∃ b, a = .ok b ∧ frameValid b = true ∧ s.cur.op = .readSerial ∧
      t = completeWithValue (storeSerial b (receive b s))) ∨
    (∃ b, a = .ok b ∧ frameValid b = true ∧ s.cur.op = .readMeasurement ∧
      t = completeWithValue (storeMeasurement b (receive b s))) := by
  cases a with
  | transportError info => simp_all [takeReadAnswer]
  | ok b =>
    cases hv : frameValid b with
    | false => simp_all [takeReadAnswer]
    | true => cases hop : s.cur.op <;> simp_all [takeReadAnswer, takeValidFrame]

end Sys2Proof.Machine
end

