-- ==== Sys2Proof/Laws/PerInstr.lean ====
section
/-! SUPPORT. Statements about every instruction, one lemma per constructor. -/

namespace Sys2Proof.Laws.EncodesWellFormed

/-- Every transfer of the encoding is well formed: a word access at an aligned offset (R52), or one of the 11 command
frames (R71). -/
def Statement (i : Instr) : Prop :=
  (encode i).all Transfer.wellFormed = true

theorem reset : Statement .reset := by rfl
theorem setMode (code : Byte) : Statement (.setMode code) := by rfl
theorem readSerial : Statement .readSerial := by rfl
theorem readMeasurement : Statement .readMeasurement := by rfl
theorem illegal0 : Statement .illegal0 := by rfl
theorem illegal5 : Statement .illegal5 := by rfl
theorem illegal6 : Statement .illegal6 := by rfl
theorem illegal7 : Statement .illegal7 := by rfl
theorem illegal8 : Statement .illegal8 := by rfl
theorem illegal9 : Statement .illegal9 := by rfl
theorem illegalA : Statement .illegalA := by rfl
theorem illegalB : Statement .illegalB := by rfl
theorem illegalC : Statement .illegalC := by rfl
theorem illegalD : Statement .illegalD := by rfl
theorem illegalE : Statement .illegalE := by rfl
theorem illegalF : Statement .illegalF := by rfl
theorem getMode : Statement .getMode := by rfl
theorem setAddr (a : Byte) : Statement (.setAddr a) := by rfl
theorem clearOvr (w1c : Bool) : Statement (.clearOvr w1c) := by rfl
theorem busReset : Statement .busReset := by rfl
theorem busReadSerial : Statement .busReadSerial := by rfl
theorem busMeasureFD : Statement .busMeasureFD := by rfl
theorem busMeasureF6 : Statement .busMeasureF6 := by rfl
theorem busMeasureE0 : Statement .busMeasureE0 := by rfl
theorem busMeasure39 : Statement .busMeasure39 := by rfl
theorem busMeasure32 : Statement .busMeasure32 := by rfl
theorem busMeasure2F : Statement .busMeasure2F := by rfl
theorem busMeasure24 : Statement .busMeasure24 := by rfl
theorem busMeasure1E : Statement .busMeasure1E := by rfl
theorem busMeasure15 : Statement .busMeasure15 := by rfl

end Sys2Proof.Laws.EncodesWellFormed
end

