-- ==== Sys2Proof/Laws/Step.lean ====
section
/-! SUPPORT. What one step does with each kind of input, and the inversion of a step: `step_kind`. -/

namespace Sys2Proof.Machine

variable {s t : State} {rest : List Input}

/-! The inputs that carry no instruction. -/

theorem step_nil (h : s.inputs = []) : step s = .next s := by
  simp [step, fetch, State.transfers, decode, otherStep, h]

theorem step_tick (h : s.inputs = .tick :: rest) : step s = .next (timerTick (s.withInputs rest)) := by
  simp [step, fetch, State.transfers, decode, otherStep, takeInput, h]

theorem step_blockReset (h : s.inputs = .blockReset :: rest) :
    step s = .next (blockReset (s.withInputs rest)) := by
  simp [step, fetch, State.transfers, decode, otherStep, takeInput, h]

theorem step_readAnswer {a : ReadAnswer} (h : s.inputs = .readAnswer a :: rest) :
    step s = if s.pend = .read then takeReadAnswer a (s.withInputs rest)
      else .next (s.withInputs rest) := by
  simp [step, fetch, State.transfers, decode, otherStep, takeInput, h]
  rfl

/-! The transport's answer to a command frame. -/

theorem busFrame_answered {b : Byte} {a : WriteAnswer} (hp : s.pend = .write) (hc : s.cur.cmd = b)
    (h : s.inputs = .writeAnswer a :: rest) : busFrame b s = takeWriteAnswer a (s.withInputs rest) := by
  simp [busFrame, frameOutstanding, hp, hc, h]

theorem busFrame_unanswered {b : Byte} (h : ∀ a rest, s.inputs ≠ .writeAnswer a :: rest) : busFrame b s = s := by
  unfold busFrame
  split
  · next hi => exact absurd hi (h _ _)
  · rfl

/-- A frame's instruction is `busFrame` of its byte. -/
theorem exec_decodeFrame {b : Byte} {i : Instr} (h : decodeFrame b = some i) : exec i s = .next (busFrame b s) := by
  have hb : b = BitVec.ofNat 8 b.toNat := by simp
  unfold decodeFrame at h
  split at h <;> cases h
  all_goals next hn => rw [hb, hn]; rfl

theorem decodeFrame_takes_no_input {b : Byte} {i : Instr} (h : decodeFrame b = some i) : inputsTaken i = 0 := by
  unfold decodeFrame at h
  split at h <;> cases h <;> rfl

theorem step_writeAnswer {a : WriteAnswer} (h : s.inputs = .writeAnswer a :: rest) :
    step s = .next (if s.pend = .write then takeWriteAnswer a (s.withInputs rest)
      else s.withInputs rest) := by
  by_cases hp : s.pend = .write
  · cases hd : decodeFrame s.cur.cmd with
    | none => simp [step, fetch, State.transfers, decode, otherStep, takeInput, h, hp, hd]
    | some i =>
      have ht : s.transfers = [.frame s.cur.cmd] := by simp [State.transfers, h, hp]
      have hs : step s = exec i s := by
        simp only [step, fetch, ht, decode, hd, decodeFrame_takes_no_input hd, List.drop_zero]
        rfl
      rw [hs, exec_decodeFrame hd, busFrame_answered hp rfl h]
      simp [hp]
  · simp [step, fetch, State.transfers, decode, otherStep, takeInput, h, hp]

theorem step_writeAnswer_pending {a : WriteAnswer} (h : s.inputs = .writeAnswer a :: rest) (hp : s.pend = .write) :
    step s = .next (takeWriteAnswer a (s.withInputs rest)) := by
  rw [step_writeAnswer h, if_pos hp]

theorem step_readAnswer_pending {a : ReadAnswer} (h : s.inputs = .readAnswer a :: rest) (hp : s.pend = .read) :
    step s = takeReadAnswer a (s.withInputs rest) := by
  rw [step_readAnswer h, if_pos hp]

/-! The host's accesses. -/

/-- The first access alone decides a write's decoding. -/
theorem transfers_host {a : Access} (h : s.inputs = .host a :: rest) : ∃ more, s.transfers = .host a :: more := by
  simp only [State.transfers, h]
  split <;> simp_all

theorem decodeCommand_takes_one (w : Word) : inputsTaken (decodeCommand w) = 1 := by
  unfold decodeCommand
  split <;> rfl

theorem step_write_cmd {w : Word} (h : s.inputs = .host (.write 0x00 4 w) :: rest) :
    step s = exec (decodeCommand w) (s.withInputs rest) := by
  obtain ⟨more, hm⟩ := transfers_host h
  simp [step, fetch, hm, decode, Access.wellFormed, Access.isWord, Access.isAligned, decodeWrite,
    decodeCommand_takes_one, h]

theorem step_write_status {v : Word} (h : s.inputs = .host (.write 0x04 4 v) :: rest) :
    step s = exec (.clearOvr (v.getLsbD 7)) (s.withInputs rest) := by
  obtain ⟨more, hm⟩ := transfers_host h
  simp [step, fetch, hm, decode, Access.wellFormed, Access.isWord, Access.isAligned, decodeWrite, inputsTaken,
    encode, h]

theorem step_write_addr {v : Word} (h : s.inputs = .host (.write 0x08 4 v) :: rest) :
    step s = exec (.setAddr (v.extractLsb' 0 8)) (s.withInputs rest) := by
  obtain ⟨more, hm⟩ := transfers_host h
  simp [step, fetch, hm, decode, Access.wellFormed, Access.isWord, Access.isAligned, decodeWrite, inputsTaken,
    encode, h]

/-- A write that is no word write of CMD, STATUS or ADDR. -/
theorem step_write_ignored {off : Byte} {width : Nat} {v : Word}
    (h : s.inputs = .host (.write off width v) :: rest)
    (hi : width = 4 → off ≠ 0x00 ∧ off ≠ 0x04 ∧ off ≠ 0x08) : step s = .next (s.withInputs rest) := by
  obtain ⟨more, hm⟩ := transfers_host h
  have hd : ∃ e, decode (.host (.write off width v) :: more) = .error e := by
    simp only [decode]
    split
    · next hw =>
      have hw4 : width = 4 := by
        simp only [Access.wellFormed, Access.isWord, Bool.and_eq_true, beq_iff_eq] at hw
        exact hw.1
      obtain ⟨h0, h4, h8⟩ := hi hw4
      have key : ∀ n, n < 256 → off ≠ BitVec.ofNat 8 n → off.toNat ≠ n := by
        intro n hn hne he
        exact hne (by simp [← he])
      have g0 := key 0 (by omega) h0
      have g4 := key 4 (by omega) h4
      have g8 := key 8 (by omega) h8
      unfold decodeWrite
      split
      · exact absurd (by assumption) g0
      · exact absurd (by assumption) g4
      · exact absurd (by assumption) g8
      · exact ⟨_, rfl⟩
    · exact ⟨_, rfl⟩
  obtain ⟨e, he⟩ := hd
  simp [step, fetch, hm, he, otherStep, takeInput, h]

theorem step_getMode (h : s.inputs = .host (.read 0x0C 4) :: .host (.read 0x10 4) :: rest) :
    step s = exec .getMode (s.withInputs rest) := by
  simp [step, fetch, State.transfers, h, decode, Access.wellFormed, Access.isWord, Access.isAligned, inputsTaken,
    encode]

/-- A read that does not begin a GET_MODE. -/
theorem step_read {off : Byte} {width : Nat} (h : s.inputs = .host (.read off width) :: rest)
    (hg : ¬ (off = 0x0C ∧ width = 4 ∧ rest.head? = some (.host (.read 0x10 4)))) :
    step s = .next (hostRead off width (s.withInputs rest)) := by
  have hd : ∃ e, decode s.transfers = .error e := by
    have ht : ∃ more, s.transfers = .host (.read off width) :: more ∧
        (more.head? = some (.host (.read 0x10 4)) → rest.head? = some (.host (.read 0x10 4))) := by
      simp only [State.transfers, h]
      split
      · next heq =>
        cases heq
        refine ⟨_, rfl, ?_⟩
        intro hm
        cases hm
        rfl
      · next heq =>
        cases heq
        exact ⟨_, rfl, by simp⟩
      · next heq => cases heq
      · next h1 h2 h3 => exact absurd rfl (h2 _ _)
    obtain ⟨more, hm, himp⟩ := ht
    rw [hm]
    simp only [decode]
    split
    · next hw =>
      have hw4 : width = 4 := by
        simp only [Access.wellFormed, Access.isWord, Bool.and_eq_true, beq_iff_eq] at hw
        exact hw.1
      split
      · next hg' => exact absurd ⟨hg'.1, hw4, himp hg'.2⟩ hg
      · exact ⟨_, rfl⟩
    · exact ⟨_, rfl⟩
  obtain ⟨e, he⟩ := hd
  simp [step, fetch, he, otherStep, takeInput, h]

/-- The invariant says nothing of the inputs to come. -/
theorem State.Inv.withInputs {inputs : List Input} (h : s.Inv) : (s.withInputs inputs).Inv :=
  ⟨h.mode_in_table, h.busy_phase, h.pend_phase, h.latched, h.latched_addr, h.last_op, h.read_op, h.wait_timer,
    h.busy_outcome, h.valid_outcome, h.err_op, h.issued_legal, h.request_issued⟩

/-! The inversion of a step. -/

/-- Everything one step can do: the input it takes, when, and the state it leaves. -/
inductive StepKind (s : State) : State → Prop where
  | noInput (h : s.inputs = []) : StepKind s s
  | read {rest : List Input} (off : Byte) (width : Nat) (h : s.inputs = .host (.read off width) :: rest) :
      StepKind s (hostRead off width (s.withInputs rest))
  | getMode {rest : List Input} (h : s.inputs = .host (.read 0x0C 4) :: .host (.read 0x10 4) :: rest) :
      StepKind s (hostRead 0x10 4 (hostRead 0x0C 4 (s.withInputs rest)))
  | writeIgnored {rest : List Input} (off : Byte) (width : Nat) (v : Word) (h : s.inputs = .host (.write off width v) :: rest)
      (hi : width = 4 → off ≠ 0x00 ∧ off ≠ 0x04 ∧ off ≠ 0x08) : StepKind s (s.withInputs rest)
  | writeBusy {rest : List Input} (off : Byte) (v : Word) (h : s.inputs = .host (.write off 4 v) :: rest)
      (ho : off = 0x00 ∨ off = 0x08) (hb : s.status.busy = true) : StepKind s (overrun (s.withInputs rest))
  | acceptReset {rest : List Input} (w : Word) (h : s.inputs = .host (.write 0x00 4 w) :: rest) (hb : s.status.busy = false)
      (ho : opField w = 0x1) : StepKind s (start .reset 0x94 1000 (accept 0x1 (s.withInputs rest)))
  | acceptReadSerial {rest : List Input} (w : Word) (h : s.inputs = .host (.write 0x00 4 w) :: rest)
      (hb : s.status.busy = false) (ho : opField w = 0x3) :
      StepKind s (start .readSerial 0x89 10000 (accept 0x3 (s.withInputs rest)))
  | acceptReadMeasurement {rest : List Input} (w : Word) (h : s.inputs = .host (.write 0x00 4 w) :: rest)
      (hb : s.status.busy = false) (ho : opField w = 0x4) :
      StepKind s (start .readMeasurement s.mode.code (modeDelayUs s.mode.code) (accept 0x4 (s.withInputs rest)))
  | setMode {rest : List Input} (w : Word) (m : Mode) (h : s.inputs = .host (.write 0x00 4 w) :: rest)
      (hb : s.status.busy = false) (ho : opField w = 0x2) (hm : lookupMode (argField w) = some m) :
      StepKind s { accept 0x2 (s.withInputs rest) with mode := m }
  | setModeInvalid {rest : List Input} (w : Word) (h : s.inputs = .host (.write 0x00 4 w) :: rest)
      (hb : s.status.busy = false) (ho : opField w = 0x2) (hm : lookupMode (argField w) = none) :
      StepKind s (raiseError .invalidArgument (accept 0x2 (s.withInputs rest)))
  | illegal {rest : List Input} (w : Word) (h : s.inputs = .host (.write 0x00 4 w) :: rest) (hb : s.status.busy = false)
      (ho : opField w = 0x0 ∨ 0x5 ≤ opField w) :
      StepKind s (raiseError .illegalCommand (accept (opField w) (s.withInputs rest)))
  | setAddr {rest : List Input} (v : Word) (h : s.inputs = .host (.write 0x08 4 v) :: rest) (hb : s.status.busy = false) :
      StepKind s (setAddr (v.extractLsb' 0 8) (s.withInputs rest))
  | writeStatus {rest : List Input} (v : Word) (h : s.inputs = .host (.write 0x04 4 v) :: rest) (hv : v.getLsbD 7 = false) :
      StepKind s (s.withInputs rest)
  | clearOvr {rest : List Input} (v : Word) (h : s.inputs = .host (.write 0x04 4 v) :: rest) (hv : v.getLsbD 7 = true) :
      StepKind s (clearOverrun (s.withInputs rest))
  | writeOk {rest : List Input} (h : s.inputs = .writeAnswer .ok :: rest) (hp : s.pend = .write) :
      StepKind s
        { s with
          inputs := rest
          pend := .none
          status := { s.status with phase := .wait }
          timer := s.cur.delayUs.toNat * Config.ticksPerUs }
  | writeError {rest : List Input} (info : Word) (h : s.inputs = .writeAnswer (.transportError info) :: rest)
      (hp : s.pend = .write) : StepKind s (raiseError (.transportError info) (s.withInputs rest))
  | lateWriteAnswer {rest : List Input} (a : WriteAnswer) (h : s.inputs = .writeAnswer a :: rest) (hp : s.pend ≠ .write) :
      StepKind s (s.withInputs rest)
  | lateReadAnswer {rest : List Input} (a : ReadAnswer) (h : s.inputs = .readAnswer a :: rest) (hp : s.pend ≠ .read) :
      StepKind s (s.withInputs rest)
  | readError {rest : List Input} (info : Word) (h : s.inputs = .readAnswer (.transportError info) :: rest) (hp : s.pend = .read) :
      StepKind s (raiseError (.transportError info) (s.withInputs rest))
  | readCorrupt {rest : List Input} (b : Frame) (h : s.inputs = .readAnswer (.ok b) :: rest) (hp : s.pend = .read)
      (hv : frameValid b = false) : StepKind s (raiseError .checksumError (receive b (s.withInputs rest)))
  | readSerial {rest : List Input} (b : Frame) (h : s.inputs = .readAnswer (.ok b) :: rest) (hp : s.pend = .read)
      (hv : frameValid b = true) (ho : s.cur.op = .readSerial) :
      StepKind s (completeWithValue (storeSerial b (receive b (s.withInputs rest))))
  | readMeasurement {rest : List Input} (b : Frame) (h : s.inputs = .readAnswer (.ok b) :: rest) (hp : s.pend = .read)
      (hv : frameValid b = true) (ho : s.cur.op = .readMeasurement) :
      StepKind s (completeWithValue (storeMeasurement b (receive b (s.withInputs rest))))
  | tick {rest : List Input} (h : s.inputs = .tick :: rest) : StepKind s (timerTick (s.withInputs rest))
  | blockReset {rest : List Input} (h : s.inputs = .blockReset :: rest) : StepKind s (blockReset (s.withInputs rest))

/-- What a write to CMD does while BUSY = 0, by OP (R141). -/
theorem exec_decodeCommand_idle (w : Word) (h : s.status.busy = false) :
    (opField w = 0x1 ∧ exec (decodeCommand w) s = .next (start .reset 0x94 1000 (accept 0x1 s))) ∨
    (opField w = 0x2 ∧ exec (decodeCommand w) s = .next (setMode (argField w) s)) ∨
    (opField w = 0x3 ∧ exec (decodeCommand w) s = .next (start .readSerial 0x89 10000 (accept 0x3 s))) ∨
    (opField w = 0x4 ∧ exec (decodeCommand w) s =
      .next (start .readMeasurement s.mode.code (modeDelayUs s.mode.code) (accept 0x4 s))) ∨
    ((opField w = 0x0 ∨ 0x5 ≤ opField w) ∧
      exec (decodeCommand w) s = .next (raiseError .illegalCommand (accept (opField w) s))) := by
  have hop : opField w = BitVec.ofNat 4 (opField w).toNat := by simp
  have hlt := (opField w).isLt
  unfold decodeCommand
  generalize (opField w).toNat = n at hop hlt ⊢
  rw [hop]
  interval_cases n <;>
    simp [exec, whileIdle_idle h, illegalCommand, execReset, execSetMode, execReadSerial, execReadMeasurement,
      execIllegal0, execIllegal5, execIllegal6, execIllegal7, execIllegal8, execIllegal9, execIllegalA,
      execIllegalB, execIllegalC, execIllegalD, execIllegalE, execIllegalF]

/-- A write to CMD while BUSY = 1 only sets OVR, whatever its OP (R142). -/
theorem exec_decodeCommand_busy (w : Word) (h : s.status.busy = true) :
    exec (decodeCommand w) s = .next (overrun s) := by
  unfold decodeCommand
  split <;>
    simp [exec, whileIdle_busy h, illegalCommand, execReset, execSetMode, execReadSerial, execReadMeasurement,
      execIllegal0, execIllegal5, execIllegal6, execIllegal7, execIllegal8, execIllegal9, execIllegalA,
      execIllegalB, execIllegalC, execIllegalD, execIllegalE, execIllegalF]

/-- The inversion of a step that writes CMD. -/
theorem step_kind_cmd {w : Word} (hi : s.inputs = .host (.write 0x00 4 w) :: rest) (h : step s = .next t) :
    StepKind s t := by
  rw [step_write_cmd hi] at h
  cases hb : s.status.busy with
  | true =>
    rw [exec_decodeCommand_busy w (by simpa using hb)] at h
    cases h
    exact .writeBusy _ w hi (.inl rfl) hb
  | false =>
    obtain ⟨ho, he⟩ | ⟨ho, he⟩ | ⟨ho, he⟩ | ⟨ho, he⟩ | ⟨ho, he⟩ :=
      exec_decodeCommand_idle (s := s.withInputs rest) w (by simpa using hb) <;> rw [he] at h
    · cases h
      exact .acceptReset w hi hb ho
    · cases hm : lookupMode (argField w) with
      | some m =>
        rw [setMode_valid hm] at h
        cases h
        exact .setMode w m hi hb ho hm
      | none =>
        rw [setMode_invalid hm] at h
        cases h
        exact .setModeInvalid w hi hb ho hm
    · cases h
      exact .acceptReadSerial w hi hb ho
    · cases h
      exact .acceptReadMeasurement w hi hb ho
    · cases h
      exact .illegal w hi hb ho

/-- The inversion of a step: whatever state a step leaves, it left it in one of the ways of `StepKind`. -/
theorem step_kind (h : step s = .next t) : StepKind s t := by
  cases hi : s.inputs with
  | nil =>
    rw [step_nil hi] at h
    cases h
    exact .noInput hi
  | cons inp rest =>
    cases inp with
    | tick =>
      rw [step_tick hi] at h
      cases h
      exact .tick hi
    | blockReset =>
      rw [step_blockReset hi] at h
      cases h
      exact .blockReset hi
    | writeAnswer a =>
      rw [step_writeAnswer hi] at h
      by_cases hp : s.pend = .write
      · cases a with
        | ok =>
          rw [if_pos hp] at h
          cases h
          exact .writeOk hi hp
        | transportError info =>
          rw [if_pos hp] at h
          cases h
          exact .writeError info hi hp
      · rw [if_neg hp] at h
        cases h
        exact .lateWriteAnswer a hi hp
    | readAnswer a =>
      rw [step_readAnswer hi] at h
      by_cases hp : s.pend = .read
      · rw [if_pos hp] at h
        obtain ⟨info, rfl, rfl⟩ | ⟨b, rfl, hv, rfl⟩ | ⟨b, rfl, hv, ho, rfl⟩ | ⟨b, rfl, hv, ho, rfl⟩ :=
          takeReadAnswer_next h
        · exact .readError info hi hp
        · exact .readCorrupt b hi hp hv
        · exact .readSerial b hi hp hv ho
        · exact .readMeasurement b hi hp hv ho
      · rw [if_neg hp] at h
        cases h
        exact .lateReadAnswer a hi hp
    | host a =>
      cases a with
      | read off width =>
        by_cases hg : off = 0x0C ∧ width = 4 ∧ rest.head? = some (.host (.read 0x10 4))
        · obtain ⟨rfl, rfl, hr⟩ := hg
          cases rest with
          | nil => cases hr
          | cons inp' rest' =>
            cases hr
            rw [step_getMode hi] at h
            cases h
            exact .getMode hi
        · rw [step_read hi hg] at h
          cases h
          exact .read off width hi
      | write off width v =>
        by_cases hw : width = 4 → off ≠ 0x00 ∧ off ≠ 0x04 ∧ off ≠ 0x08
        · rw [step_write_ignored hi hw] at h
          cases h
          exact .writeIgnored off width v hi hw
        · obtain ⟨rfl, hoff⟩ := Classical.not_imp.mp hw
          by_cases h0 : off = 0x00
          · subst h0
            exact step_kind_cmd hi h
          by_cases h4 : off = 0x04
          · subst h4
            rw [step_write_status hi] at h
            cases hv : v.getLsbD 7 with
            | true =>
              rw [hv] at h
              cases h
              exact .clearOvr v hi hv
            | false =>
              rw [hv] at h
              cases h
              exact .writeStatus v hi hv
          by_cases h8 : off = 0x08
          · subst h8
            rw [step_write_addr hi] at h
            cases hb : s.status.busy with
            | true =>
              rw [exec, execSetAddr, whileIdle_busy (by simpa using hb)] at h
              cases h
              exact .writeBusy _ v hi (.inr rfl) hb
            | false =>
              rw [exec, execSetAddr, whileIdle_idle (by simpa using hb)] at h
              cases h
              exact .setAddr v hi hb
          · exact absurd ⟨h0, h4, h8⟩ hoff

end Sys2Proof.Machine
end

