-- ==== Sys2Proof/Laws/Run.lean ====
section
/-! SUPPORT. Runs of several steps: one step at a time, and the settle delay as one run of ticks. -/

namespace Sys2Proof.Machine

theorem run_zero (s : State) : Sys2Proof.core.run 0 s = .next s := rfl

/-- A run takes its first step and goes on, for any machine. -/
theorem core_run_step (M : Host.Core) {s t : M.State} (k : Nat) (h : M.step s = .next t) :
    M.run (k + 1) s = M.run k t := by
  simp only [Host.Core.run, h]

/-- A run takes its first step and goes on. -/
theorem run_step {s t : State} (k : Nat) (h : step s = .next t) :
    Sys2Proof.core.run (k + 1) s = Sys2Proof.core.run k t :=
  core_run_step Sys2Proof.core k h

/-- In WAIT with TIMER = n + 1, exactly n + 1 ticks reach the expiry (R191). -/
theorem run_ticks (n k : Nat) {s : State} {rest : List Input} (hp : s.status.phase = .wait) (ht : s.timer = n + 1)
    (hi : s.inputs = List.replicate (n + 1) .tick ++ rest) :
    Sys2Proof.core.run (n + 1 + k) s = Sys2Proof.core.run k (expire { s.withInputs rest with timer := 0 }) := by
  induction n generalizing s with
  | zero =>
    have h := step_tick (s := s) (rest := rest) (by simpa using hi)
    rw [timerTick_expire (by simpa using hp) (by simp [ht])] at h
    rw [show 0 + 1 + k = k + 1 by omega, run_step k h]
  | succ n ih =>
    have h := step_tick (s := s) (rest := List.replicate (n + 1) .tick ++ rest) (by rw [hi, List.replicate_succ]; rfl)
    rw [timerTick_count (by simpa using hp) (by simp [ht])] at h
    rw [show n + 1 + 1 + k = n + 1 + k + 1 by omega, run_step _ h]
    exact ih (by simpa using hp) (by simp [ht]) rfl

end Sys2Proof.Machine
end

