-- ==== Sys2Proof/Tests/Slice0.lean ====
section
/-! SUPPORT. The model's own tests and the witnesses of its statements. Expected values come from 95_test_vectors.md
and from the encodings of 30_encoding.md, as each comment says. -/

namespace Sys2Proof.Tests

open Sys2Proof.Machine

/-! ## States -/

/-- The next state of a step or an instruction. -/
def after (r : Result) : Option State :=
  match r with
  | .next s => some s
  | .fault _ => none
  | .refused _ => none

/-- The state after reset with inputs to come. -/
def idle (inputs : List Input) : State := State.reset.withInputs inputs

/-- A bus operation just accepted from reset: PHASE = WRITE. -/
def writing (op : BusOp) (cmd : Byte) (us : Word) (inputs : List Input) : State :=
  start op cmd us (accept op.code (idle inputs))

/-- The same operation in WAIT, one tick before expiry. -/
def waiting (op : BusOp) (cmd : Byte) (us : Word) (inputs : List Input) : State :=
  { writing op cmd us inputs with
    pend := .none
    status := ⟨true, false, .none, false, op.code, .wait⟩
    timer := 1 }

/-- The same operation in READ. -/
def reading (op : BusOp) (cmd : Byte) (us : Word) (inputs : List Input) : State :=
  startRead { waiting op cmd us inputs with timer := 0 }

/-- READ_MEASUREMENT in the reset mode, in each phase. -/
def measWriting := writing .readMeasurement 0xFD 10000
def measWaiting := waiting .readMeasurement 0xFD 10000
def measReading := reading .readMeasurement 0xFD 10000

/-- READ_SERIAL in WRITE and in READ, and RESET in WRITE and in WAIT. -/
def serialWriting := writing .readSerial 0x89 10000
def serialReading := reading .readSerial 0x89 10000
def resetWriting := writing .reset 0x94 1000
def resetWaiting := waiting .reset 0x94 1000

/-- The frame of 95_test_vectors.md B3 (serial 0x12345678), and of B6 (25.0 and 44.0). -/
def serialFrame : Frame := ⟨0x12, 0x34, 0x37, 0x56, 0x78, 0x7D⟩
def measFrame : Frame := ⟨0x66, 0x66, 0x93, 0x66, 0x66, 0x93⟩

/-- `wr off, v` (R80). -/
def wr (off : Byte) (v : Word) : Input := .host (.write off 4 v)

/-- `rd off` (R80). -/
def rd (off : Byte) : Input := .host (.read off 4)

/-- STATUS after a step. -/
def statusAfter (s : State) : Option Word := (after (step s)).map fun t => t.status.word

/-! ## Well-formedness: an ill-formed term for each check (R52, R71) -/

/-- 95_test_vectors.md H9: a 1-byte write to offset 0x08. -/
theorem test_wellFormed_refuses_sub_word : (Access.write 0x08 1 0).wellFormed = false := by decide
theorem test_wellFormed_refuses_misaligned_write : (Access.write 0x09 4 0).wellFormed = false := by decide
theorem test_wellFormed_refuses_misaligned_read : (Access.read 0x0E 4).wellFormed = false := by decide
theorem test_wellFormed_refuses_wide_read : (Access.read 0x04 8).wellFormed = false := by decide
theorem test_wellFormed_refuses_foreign_frame : (Transfer.frame 0xFF).wellFormed = false := by decide
theorem test_wellFormed_refuses_misaligned_transfer : (Transfer.host (.read 0x02 4)).wellFormed = false := by decide
theorem test_wellFormed_accepts_cmd : (Access.write 0x00 4 1).wellFormed = true := by decide

/-! ## Decoding: one written-out word per constructor (R71, R73, R74, R81) -/

theorem test_decode_reset : decode [.host (.write 0x00 4 0b00000000000000000000000000000001)] = .ok .reset := by rfl
/-- ARG = 0xF6 in bits [15:8], and every reserved bit set (95_test_vectors.md 2.2). -/
theorem test_decode_setMode : decode [.host (.write 0x00 4 0b11111111111111111111011011110010)] = .ok (.setMode 0xF6) := by rfl
theorem test_decode_readSerial : decode [.host (.write 0x00 4 0b00000000000000000000000000000011)] = .ok .readSerial := by rfl
theorem test_decode_readMeasurement : decode [.host (.write 0x00 4 0b00000000000000000000000000000100)] = .ok .readMeasurement := by rfl
theorem test_decode_illegal0 : decode [.host (.write 0x00 4 0b11111111111111110000000011110000)] = .ok .illegal0 := by rfl
theorem test_decode_illegal5 : decode [.host (.write 0x00 4 0b11111111111111110000000011110101)] = .ok .illegal5 := by rfl
theorem test_decode_illegal6 : decode [.host (.write 0x00 4 0b11111111111111110000000011110110)] = .ok .illegal6 := by rfl
theorem test_decode_illegal7 : decode [.host (.write 0x00 4 0b11111111111111110000000011110111)] = .ok .illegal7 := by rfl
theorem test_decode_illegal8 : decode [.host (.write 0x00 4 0b11111111111111110000000011111000)] = .ok .illegal8 := by rfl
theorem test_decode_illegal9 : decode [.host (.write 0x00 4 0b11111111111111110000000011111001)] = .ok .illegal9 := by rfl
theorem test_decode_illegalA : decode [.host (.write 0x00 4 0b11111111111111110000000011111010)] = .ok .illegalA := by rfl
theorem test_decode_illegalB : decode [.host (.write 0x00 4 0b11111111111111110000000011111011)] = .ok .illegalB := by rfl
theorem test_decode_illegalC : decode [.host (.write 0x00 4 0b11111111111111110000000011111100)] = .ok .illegalC := by rfl
theorem test_decode_illegalD : decode [.host (.write 0x00 4 0b11111111111111110000000011111101)] = .ok .illegalD := by rfl
theorem test_decode_illegalE : decode [.host (.write 0x00 4 0b11111111111111110000000011111110)] = .ok .illegalE := by rfl
theorem test_decode_illegalF : decode [.host (.write 0x00 4 0b11111111111111110000000011111111)] = .ok .illegalF := by rfl
theorem test_decode_getMode : decode [.host (.read 0x0C 4), .host (.read 0x10 4)] = .ok .getMode := by rfl
theorem test_decode_setAddr : decode [.host (.write 0x08 4 0b11111111111111111111111110000000)] = .ok (.setAddr 0x80) := by rfl
theorem test_decode_clearOvr : decode [.host (.write 0x04 4 0b00000000000000000000000010000000)] = .ok (.clearOvr true) := by rfl
theorem test_decode_clearOvr_zero : decode [.host (.write 0x04 4 0b11111111111111111111111101111111)] = .ok (.clearOvr false) := by rfl
theorem test_decode_busReset : decode [.frame 0b10010100] = .ok .busReset := by rfl
theorem test_decode_busReadSerial : decode [.frame 0b10001001] = .ok .busReadSerial := by rfl
theorem test_decode_busMeasureFD : decode [.frame 0b11111101] = .ok .busMeasureFD := by rfl
theorem test_decode_busMeasureF6 : decode [.frame 0b11110110] = .ok .busMeasureF6 := by rfl
theorem test_decode_busMeasureE0 : decode [.frame 0b11100000] = .ok .busMeasureE0 := by rfl
theorem test_decode_busMeasure39 : decode [.frame 0b00111001] = .ok .busMeasure39 := by rfl
theorem test_decode_busMeasure32 : decode [.frame 0b00110010] = .ok .busMeasure32 := by rfl
theorem test_decode_busMeasure2F : decode [.frame 0b00101111] = .ok .busMeasure2F := by rfl
theorem test_decode_busMeasure24 : decode [.frame 0b00100100] = .ok .busMeasure24 := by rfl
theorem test_decode_busMeasure1E : decode [.frame 0b00011110] = .ok .busMeasure1E := by rfl
theorem test_decode_busMeasure15 : decode [.frame 0b00010101] = .ok .busMeasure15 := by rfl

/-! What the decoder rejects, by name (R52, R53, R54, R55, R71). -/

theorem test_decode_rejects_sub_word : decode [.host (.write 0x08 1 0x45)] = .error .notAWordAccess := by rfl
theorem test_decode_rejects_read_only : decode [.host (.write 0x14 4 1)] = .error .readOnly := by rfl
theorem test_decode_rejects_unmapped : decode [.host (.write 0x30 4 1)] = .error .unmapped := by rfl
theorem test_decode_rejects_single_read : decode [.host (.read 0x0C 4)] = .error .registerRead := by rfl
theorem test_decode_rejects_foreign_frame : decode [.frame 0x00] = .error .notACommandFrame := by rfl
theorem test_decode_rejects_nothing : decode [] = .error .noTransfer := by rfl

/-! The rows of spec/opcode_table.json by their numbers, and the step that runs them first after reset. -/

theorem test_table_words :
    decodeTableWord 32 0x00000001 = some .reset ∧ decodeTableWord 8 0x01 = some .reset ∧
      decodeTableWord 32 0x00009402 = some (.setMode 0x94) ∧ decodeTableWord 32 0x94 = some .readMeasurement ∧
      decodeTableWord 8 0x94 = some .busReset ∧ decodeTableWord 8 0x15 = some .busMeasure15 := by decide

theorem test_fetchWord_command (w : Word) :
    step (State.reset.withFetchWord 32 w.toNat) = exec (decodeCommand w) State.reset := by
  have hi : (State.reset.withFetchWord 32 w.toNat).inputs = .host (.write 0x00 4 w) :: [] := by
    simp [State.withFetchWord, tableTransfer, placeTransfer, State.reset]
  rw [step_write_cmd hi]
  simp only [State.withFetchWord, tableTransfer, placeTransfer]
  rfl

/-- From reset, a frame's row runs to WAIT (R144). -/
theorem test_fetchWord_frame :
    ∀ p ∈ frameInstrs, ((after (step (State.reset.withFetchWord 8 p.2.1.toNat))).map fun t =>
      (t.status.phase, t.cur.cmd, t.cur.delayUs.toNat)) = some (.wait, p.2.1, p.2.2) := by decide

/-! ## Instructions and inputs: STATUS words and registers of 95_test_vectors.md -/

/-- B1: right after acceptance (P3's 0x00001101 with ADDR 0x44). -/
theorem test_reset_accepted : statusAfter (idle [wr 0x00 1]) = some 0x00001101 := by decide
theorem test_reset_issues :
    (after (step (idle [wr 0x00 1]))).map (·.issued) = some [.busWrite 0x44 0x94] := by decide
/-- 2.2: `wr CMD, 0x0000F602`. -/
theorem test_setMode : statusAfter (idle [wr 0x00 0x0000F602]) = some 0x00000200 ∧
    (after (step (idle [wr 0x00 0x0000F602]))).map (fun t => (readRegister t 0x0C, readRegister t 0x10)) =
      some (0x000001F6, 0x00001388) := by decide
/-- S8: code 0x00 from reset. -/
theorem test_setMode_invalid : statusAfter (idle [wr 0x00 0x00000002]) = some 0x00000210 ∧
    (after (step (idle [wr 0x00 0x00000002]))).map (readRegister · 0x0C) = some 0x000000FD := by decide
/-- P2: STATUS after the CMD write of READ_SERIAL. -/
theorem test_readSerial_accepted : statusAfter (idle [wr 0x00 3]) = some 0x00001301 := by decide
/-- B6: STATUS after the CMD write of READ_MEASUREMENT. -/
theorem test_readMeasurement_accepted : statusAfter (idle [wr 0x00 4]) = some 0x00001401 := by decide
theorem test_readMeasurement_issues :
    (after (step (idle [wr 0x00 4]))).map (·.issued) = some [.busWrite 0x44 0xFD] := by decide
/-- B10, B11, B12, and the other reserved OPs by the layout of R24. -/
theorem test_illegal_low :
    statusAfter (idle [wr 0x00 0xFFFF0000]) = some 0x00000040 ∧ statusAfter (idle [wr 0x00 5]) = some 0x00000540 ∧
      statusAfter (idle [wr 0x00 6]) = some 0x00000640 ∧ statusAfter (idle [wr 0x00 7]) = some 0x00000740 ∧
      statusAfter (idle [wr 0x00 8]) = some 0x00000840 ∧ statusAfter (idle [wr 0x00 9]) = some 0x00000940 := by decide
theorem test_illegal_high :
    statusAfter (idle [wr 0x00 0xA]) = some 0x00000A40 ∧ statusAfter (idle [wr 0x00 0xB]) = some 0x00000B40 ∧
      statusAfter (idle [wr 0x00 0xC]) = some 0x00000C40 ∧ statusAfter (idle [wr 0x00 0xD]) = some 0x00000D40 ∧
      statusAfter (idle [wr 0x00 0xE]) = some 0x00000E40 ∧ statusAfter (idle [wr 0x00 0xF]) = some 0x00000F40 := by decide
/-- S11 and R105's example: after reset `getmode` gives 0x000000FD and 10000. -/
theorem test_getMode :
    (after (step (idle [rd 0x0C, rd 0x10]))).map (fun t => (t.hostReads, t.inputs)) =
      some ([0x00002710, 0x000000FD], []) := by decide
/-- H2: bits [31:8] are ignored. -/
theorem test_setAddr : (after (step (idle [wr 0x08 0xFFFFFF80]))).map (·.addr) = some 0x80 := by decide
/-- H3: busy in WRITE with LAST_OP = 1. -/
theorem test_setAddr_busy : statusAfter (resetWriting [wr 0x08 0x46]) = some 0x00001181 ∧
    (after (step (resetWriting [wr 0x08 0x46]))).map (·.addr) = some 0x44 := by decide
/-- H4 and H5: from STATUS = 0x00001181. -/
theorem test_clearOvr : statusAfter (overrun (resetWriting [wr 0x04 0x80])) = some 0x00001101 := by decide
theorem test_clearOvr_zero : statusAfter (overrun (resetWriting [wr 0x04 0x7F])) = some 0x00001181 := by decide
/-- B13: a second command while PHASE = WRITE. -/
theorem test_command_busy : statusAfter (serialWriting [wr 0x00 4]) = some 0x00001381 := by decide
/-- B6: after the write answer. -/
theorem test_busMeasure_ok : statusAfter (measWriting [.writeAnswer .ok]) = some 0x00002401 := by decide
theorem test_busReset_timer :
    (after (step (resetWriting [.writeAnswer .ok]))).map (·.timer) = some (1000 * Config.ticksPerUs) := by rfl
/-- B2: TransportError(0x7) to the write of RESET. -/
theorem test_busReset_error : statusAfter (resetWriting [.writeAnswer (.transportError 7)]) = some 0x00000130 ∧
    (after (step (resetWriting [.writeAnswer (.transportError 7)]))).map (·.terr) = some 7 := by decide
/-- B1 and B6: after the timer. -/
theorem test_expiry_reset : statusAfter (resetWaiting [.tick]) = some 0x00000100 := by decide
theorem test_expiry_read : statusAfter (measWaiting [.tick]) = some 0x00003401 := by decide
/-- B3, B4, B5. -/
theorem test_read_serial : statusAfter (serialReading [.readAnswer (.ok serialFrame)]) = some 0x00000302 ∧
    (after (step (serialReading [.readAnswer (.ok serialFrame)]))).map (·.results.serial) = some 0x12345678 := by decide +kernel
theorem test_read_serial_corrupt :
    statusAfter (serialReading [.readAnswer (.ok { serialFrame with b5 := 0x7C })]) = some 0x00000320 ∧
      (after (step (serialReading [.readAnswer (.ok { serialFrame with b5 := 0x7C })]))).map (·.results.serial) =
        some 0 := by decide +kernel
theorem test_read_serial_error :
    statusAfter (serialReading [.readAnswer (.transportError 2)]) = some 0x00000330 := by decide
/-- B9: the frame [66 66 93 5C 29 DC]. -/
theorem test_read_measurement :
    (after (step (measReading [.readAnswer (.ok ⟨0x66, 0x66, 0x93, 0x5C, 0x29, 0xDC⟩)]))).map (fun t =>
      (t.status.word, readRegister t 0x18, readRegister t 0x20, readRegister t 0x28, readRegister t 0x24)) =
      some (0x00000402, 0x5C296666, 0x40390000, 0x40438019, 0x00190019) := by decide +kernel
/-- H6, H7, H8, H9. -/
theorem test_read_unmapped : (after (step (measReading [rd 0x30]))).map (·.hostReads) = some [0] := by decide
theorem test_read_cmd : (after (step (measReading [rd 0x00]))).map (·.hostReads) = some [0] := by decide
theorem test_write_read_only : after (step (idle [wr 0x14 1])) = some (idle []) := by decide
theorem test_write_sub_word : after (step (idle [.host (.write 0x08 1 0x45)])) = some (idle []) := by decide
/-- R203: a late answer after a block reset. -/
theorem test_late_answer : after (step (idle [.readAnswer (.ok serialFrame)])) = some (idle []) := by decide
theorem test_block_reset :
    (after (step (measReading [.blockReset]))).map (fun t => (t.status.word, t.pend)) = some (0, .none) := by decide

/-! ## Datapath: 95_test_vectors.md 2.3, 2.4 and 2.5 -/

theorem test_crc8 :
    crc8 0x00 0x00 = 0x81 ∧ crc8 0x00 0x01 = 0xB0 ∧ crc8 0x01 0x00 = 0x75 ∧ crc8 0xFF 0xFF = 0xAC ∧
      crc8 0xBE 0xEF = 0x92 ∧ crc8 0xCA 0xFE = 0x58 ∧ crc8 0x5C 0x29 = 0xDC := by decide +kernel
theorem test_frameValid :
    frameValid serialFrame = true ∧ frameValid { serialFrame with b2 := 0x36 } = false ∧
      frameValid ⟨0, 0, 0, 0, 0, 0⟩ = false := by decide +kernel
theorem test_fields :
    field0 ⟨0x00, 0x01, 0xB0, 0x01, 0x00, 0x75⟩ = 0x0001 ∧ field1 ⟨0x00, 0x01, 0xB0, 0x01, 0x00, 0x75⟩ = 0x0100 ∧
      serialOf serialFrame = 0x12345678 := by decide
theorem test_tempOf :
    tempOf 0x0001 = 0xC0467FA87FA87FA8 ∧ tempOf 0x4000 = 0xBFF3FD43FD43FD40 ∧ tempOf 0x41D4 = 0x3F390019001A0000 ∧
      tempOf 0x8000 = 0x4045402BC02BC02C ∧ tempOf 0xFFFE = 0x40603FEA1FEA1FEA := by decide +kernel
theorem test_rhOf :
    rhOf 0x0C49 = 0 ∧ rhOf 0x0C4A = 0x3F44001400140000 ∧ rhOf 0x8000 = 0x404C401F401F401F ∧
      rhOf 0xD915 = 0x4058FFEABFEABFEB ∧ rhOf 0xD916 = 0x4059000000000000 := by decide +kernel

/-! ## States that meet the invariant -/

theorem ticksPerUs_pos : 0 < Config.ticksPerUs := Nat.succ_pos _

theorem inv_idle (inputs : List Input) : (idle inputs).Inv :=
  State.Inv.withInputs (s := State.reset) (inputs := inputs)
    { mode_in_table := by decide
      busy_phase := by decide
      pend_phase := by decide
      latched := fun h => nomatch h
      latched_addr := by decide
      last_op := by decide
      read_op := by decide
      wait_timer := fun h => nomatch h
      busy_outcome := by decide
      valid_outcome := by decide
      err_op := trivial
      issued_legal := fun _ h => nomatch h
      request_issued := fun _ h => nomatch h }

theorem inv_resetWriting (inputs : List Input) : (resetWriting inputs).Inv :=
  State.Inv.withInputs (s := resetWriting []) (inputs := inputs)
    { mode_in_table := by decide
      busy_phase := by decide
      pend_phase := by decide
      latched := fun _ => ⟨rfl, rfl⟩
      latched_addr := by decide
      last_op := by decide
      read_op := by decide
      wait_timer := fun h => nomatch h
      busy_outcome := by decide
      valid_outcome := by decide
      err_op := trivial
      issued_legal := by
        intro r h
        rcases List.mem_cons.mp h with rfl | h
        · show _ ∈ commandFrameBytes
          decide
        · cases h
      request_issued := by
        intro r h
        cases h
        rfl }

theorem inv_measWriting (inputs : List Input) : (measWriting inputs).Inv :=
  State.Inv.withInputs (s := measWriting []) (inputs := inputs)
    { mode_in_table := by decide
      busy_phase := by decide
      pend_phase := by decide
      latched := fun _ => ⟨rfl, rfl⟩
      latched_addr := by decide
      last_op := by decide
      read_op := by decide
      wait_timer := fun h => nomatch h
      busy_outcome := by decide
      valid_outcome := by decide
      err_op := trivial
      issued_legal := by
        intro r h
        rcases List.mem_cons.mp h with rfl | h
        · show _ ∈ commandFrameBytes
          decide
        · cases h
      request_issued := by
        intro r h
        cases h
        rfl }

theorem inv_serialWriting (inputs : List Input) : (serialWriting inputs).Inv :=
  State.Inv.withInputs (s := serialWriting []) (inputs := inputs)
    { mode_in_table := by decide
      busy_phase := by decide
      pend_phase := by decide
      latched := fun _ => ⟨rfl, rfl⟩
      latched_addr := by decide
      last_op := by decide
      read_op := by decide
      wait_timer := fun h => nomatch h
      busy_outcome := by decide
      valid_outcome := by decide
      err_op := trivial
      issued_legal := by
        intro r h
        rcases List.mem_cons.mp h with rfl | h
        · show _ ∈ commandFrameBytes
          decide
        · cases h
      request_issued := by
        intro r h
        cases h
        rfl }

theorem inv_measWaiting (inputs : List Input) : (measWaiting inputs).Inv :=
  State.Inv.withInputs (s := measWaiting []) (inputs := inputs)
    { mode_in_table := by decide
      busy_phase := by decide
      pend_phase := by decide
      latched := fun _ => ⟨rfl, rfl⟩
      latched_addr := by decide
      last_op := by decide
      read_op := by decide
      wait_timer := fun _ => ⟨Nat.one_pos, Nat.mul_pos (by decide) ticksPerUs_pos⟩
      busy_outcome := by decide
      valid_outcome := by decide
      err_op := trivial
      issued_legal := by
        intro r h
        rcases List.mem_cons.mp h with rfl | h
        · show _ ∈ commandFrameBytes
          decide
        · cases h
      request_issued := fun _ h => nomatch h }

theorem inv_resetWaiting (inputs : List Input) : (resetWaiting inputs).Inv :=
  State.Inv.withInputs (s := resetWaiting []) (inputs := inputs)
    { mode_in_table := by decide
      busy_phase := by decide
      pend_phase := by decide
      latched := fun _ => ⟨rfl, rfl⟩
      latched_addr := by decide
      last_op := by decide
      read_op := by decide
      wait_timer := fun _ => ⟨Nat.one_pos, Nat.mul_pos (by decide) ticksPerUs_pos⟩
      busy_outcome := by decide
      valid_outcome := by decide
      err_op := trivial
      issued_legal := by
        intro r h
        rcases List.mem_cons.mp h with rfl | h
        · show _ ∈ commandFrameBytes
          decide
        · cases h
      request_issued := fun _ h => nomatch h }

theorem inv_measReading (inputs : List Input) : (measReading inputs).Inv :=
  State.Inv.withInputs (s := measReading []) (inputs := inputs)
    { mode_in_table := by decide
      busy_phase := by decide
      pend_phase := by decide
      latched := fun _ => ⟨rfl, rfl⟩
      latched_addr := by decide
      last_op := by decide
      read_op := by decide
      wait_timer := fun h => nomatch h
      busy_outcome := by decide
      valid_outcome := by decide
      err_op := trivial
      issued_legal := by
        intro r h
        rcases List.mem_cons.mp h with rfl | h
        · rfl
        rcases List.mem_cons.mp h with rfl | h
        · show _ ∈ commandFrameBytes
          decide
        · cases h
      request_issued := by
        intro r h
        cases h
        rfl }

theorem inv_serialReading (inputs : List Input) : (serialReading inputs).Inv :=
  State.Inv.withInputs (s := serialReading []) (inputs := inputs)
    { mode_in_table := by decide
      busy_phase := by decide
      pend_phase := by decide
      latched := fun _ => ⟨rfl, rfl⟩
      latched_addr := by decide
      last_op := by decide
      read_op := by decide
      wait_timer := fun h => nomatch h
      busy_outcome := by decide
      valid_outcome := by decide
      err_op := trivial
      issued_legal := by
        intro r h
        rcases List.mem_cons.mp h with rfl | h
        · rfl
        rcases List.mem_cons.mp h with rfl | h
        · show _ ∈ commandFrameBytes
          decide
        · cases h
      request_issued := by
        intro r h
        cases h
        rfl }

/-! ## Witnesses: for each statement with hypotheses, a state and operands that meet all of them -/

/-- READ_MEASUREMENT completed with its result. -/
def completed (inputs : List Input) : State :=
  completeWithValue (storeMeasurement measFrame (receive measFrame (measReading inputs)))

theorem inv_completed (inputs : List Input) : (completed inputs).Inv :=
  State.Inv.withInputs (s := completed []) (inputs := inputs)
    { mode_in_table := by decide
      busy_phase := by decide
      pend_phase := by decide
      latched := fun h => nomatch h
      latched_addr := by decide
      last_op := by decide
      read_op := by decide
      wait_timer := fun h => nomatch h
      busy_outcome := by decide
      valid_outcome := by decide
      err_op := trivial
      issued_legal := (inv_measReading []).issued_legal
      request_issued := fun _ h => nomatch h }

theorem test_readAnswer_completes : step (measReading [.readAnswer (.ok measFrame)]) = .next (completed []) := by
  rw [step_readAnswer_pending (a := .ok measFrame) (rest := []) rfl rfl]
  have hv : frameValid measFrame = true := by decide +kernel
  simp only [takeReadAnswer, hv, if_true]
  rfl

theorem test_serial_completes : step (serialReading [.readAnswer (.ok serialFrame)]) =
    .next (completeWithValue (storeSerial serialFrame (receive serialFrame (serialReading [])))) := by
  rw [step_readAnswer_pending (a := .ok serialFrame) (rest := []) rfl rfl]
  have hv : frameValid serialFrame = true := by decide +kernel
  simp only [takeReadAnswer, hv, if_true]
  rfl

/-- An idle state in the reset mode with a CMD write, an Ok answer, n ticks and a tail to come. -/
theorem idle_run (w : Word) (n : Nat) (tail : List Input) :
    ∃ s : State, s.Inv ∧ s.status.phase = .idle ∧ s.mode.delayUs.toNat = 10000 ∧
      s.inputs = .host (.write 0x00 4 w) :: .writeAnswer .ok :: (List.replicate n .tick ++ tail) :=
  ⟨idle (wr 0x00 w :: .writeAnswer .ok :: (List.replicate n .tick ++ tail)), inv_idle _, rfl, rfl, rfl⟩

theorem witness_BlockResetRestoresTheResetValues :
    ∃ (s : State) (rest : List Input), s.inputs = .blockReset :: rest :=
  ⟨measReading [.blockReset], [], rfl⟩

theorem witness_IdleEngineIgnoresTheUnspecifiedLatches :
    ∃ s t : State, s.status.busy = false ∧ s.status.phase = .idle ∧ s.pend = .none ∧ step s = .next t ∧
      t.status.busy = true :=
  ⟨idle [wr 0x00 3], _, rfl, rfl, rfl, rfl, rfl⟩

theorem witness_StepRunsTheDecodedInstruction_host :
    ∃ (s : State) (a : Access) (rest : List Input) (i : Instr),
      s.inputs = .host a :: rest ∧ decode s.transfers = .ok i :=
  ⟨idle [rd 0x0C, rd 0x10], _, _, .getMode, rfl, rfl⟩

theorem witness_StepRunsTheDecodedInstruction_frame :
    ∃ (s : State) (a : WriteAnswer) (rest : List Input) (i : Instr),
      s.inputs = .writeAnswer a :: rest ∧ s.pend = .write ∧ decode [.frame s.cur.cmd] = .ok i :=
  ⟨measWriting [.writeAnswer .ok], _, _, .busMeasureFD, rfl, rfl, rfl⟩

theorem witness_DecodeDependsOnlyOnOpAndSetModeArg :
    ∃ w w' : Word, w ≠ w' ∧ w.extractLsb' 0 4 = w'.extractLsb' 0 4 ∧
      (w.extractLsb' 0 4 = 0x2#4 → w.extractLsb' 8 8 = w'.extractLsb' 8 8) :=
  ⟨0x0000F602, 0xFFFFF6F2, by decide, by decide, by decide⟩

theorem witness_DecodeOfEveryCommandWord :
    (∃ w : Word, w.extractLsb' 0 4 = 0x1#4) ∧ (∃ w : Word, w.extractLsb' 0 4 = 0x2#4) ∧
      (∃ w : Word, w.extractLsb' 0 4 = 0x3#4) ∧ (∃ w : Word, w.extractLsb' 0 4 = 0x4#4) ∧
      (∃ w : Word, w.extractLsb' 0 4 ∉ [0x1#4, 0x2#4, 0x3#4, 0x4#4]) ∧
      ∃ w w' : Word, w ≠ w' ∧ w.extractLsb' 0 4 = w'.extractLsb' 0 4 ∧ w.extractLsb' 0 4 ≠ 0x2#4 :=
  ⟨⟨1, by decide⟩, ⟨0xF2, by decide⟩, ⟨3, by decide⟩, ⟨4, by decide⟩, ⟨0xF, by decide⟩, ⟨0x1, 0xFFF1, by decide⟩⟩

theorem witness_DecodeEncodeAgree :
    (∃ (v : Word) (i : Instr), decode [.host (.write 0x08 4 v)] = .ok i) ∧
      (∃ (v : Word) (i : Instr), decode [.host (.write 0x04 4 v)] = .ok i) ∧
      ∃ (b : Byte) (i : Instr), decodeFrame b = some i :=
  ⟨⟨0xFFFFFFFF, _, rfl⟩, ⟨0xFFFFFFFF, _, rfl⟩, ⟨0x15, _, rfl⟩⟩

theorem witness_CommandFramesAreTheElevenBytes :
    ∃ b : Byte, b ∉ commandFrameBytes :=
  ⟨0x00, by decide⟩

theorem witness_HostReadReturnsItsRegister :
    ∃ (s : State) (off : Byte) (width : Nat) (rest : List Input), s.inputs = .host (.read off width) :: rest ∧
      ¬ (off = 0x0C ∧ width = 4 ∧ rest.head? = some (.host (.read 0x10 4))) :=
  ⟨idle [rd 0x0C, rd 0x0C], 0x0C, 4, _, rfl, by decide⟩

theorem witness_HostReadReturnsItsRegister_bounds :
    (0x2C#8 < (0x30 : Byte) ∧ 0x2C#8 < (0xFF : Byte)) ∧ (0x2D : Byte).toNat % 4 ≠ 0 ∧ (1 : Nat) ≠ 4 :=
  by decide

theorem witness_IgnoredHostWritesChangeNothing_width :
    ∃ (s : State) (off : Byte) (width : Nat) (v : Word) (rest : List Input),
      s.inputs = .host (.write off width v) :: rest ∧ width ≠ 4 :=
  ⟨idle [.host (.write 0x08 1 0x45)], _, _, _, _, rfl, by decide⟩

theorem witness_IgnoredHostWritesChangeNothing_offsets :
    ∃ (s t u : State) (v : Word), s.inputs = [wr 0x09 v] ∧ (0x09 : Byte).toNat % 4 ≠ 0 ∧
      t.inputs = [wr 0x2C v] ∧ (0x2C : Byte) ∈ ([0x0C, 0x10, 0x14, 0x18, 0x1C, 0x20, 0x24, 0x28, 0x2C] : List Byte) ∧
      u.inputs = [wr 0x30 v] ∧ 0x30#8 ≤ (0x30 : Byte) :=
  ⟨idle [wr 0x09 1], idle [wr 0x2C 1], idle [wr 0x30 1], 1, rfl, by decide, rfl, by decide, rfl, by decide⟩

theorem witness_WindowSitsAtRegBase :
    (∃ off : Nat, off < 0x100 ∧ off = 0xFF) ∧ ∃ addr : Nat, Config.regBase + 0x100 ≤ addr :=
  ⟨⟨0xFF, by decide, rfl⟩, _, Nat.le_refl _⟩

theorem witness_IdleBusCommandStartsItsOperation :
    ∃ s : State, s.status.busy = false ∧ s.mode ∈ modeTable :=
  ⟨idle [], rfl, by decide⟩

theorem witness_SetModeStoresAValidMode :
    ∃ (s : State) (m : Mode), m ∈ modeTable ∧ s.status.busy = false :=
  ⟨idle [], ⟨0x15, 8, 110000⟩, by decide, rfl⟩

theorem witness_SetModeRejectsAnInvalidCode :
    ∃ (s : State) (code : Byte), (∀ m ∈ modeTable, m.code ≠ code) ∧
      s.status.busy = false ∧ s.status.phase = .idle ∧ s.pend = .none :=
  ⟨idle [], 0x94, by decide, rfl, rfl, rfl⟩

theorem witness_ReservedOpRaisesIllegalCommand :
    (∃ p ∈ illegalInstrs, ∃ s : State, s.status.busy = false ∧ s.status.phase = .idle ∧ s.pend = .none ∧ p.2 = 0xF) ∧
      ∃ p ∈ illegalInstrs, ∃ s : State, s.status.busy = true ∧ p.2 = 0x0 :=
  ⟨⟨(.illegalF, 0xF), by decide, idle [], rfl, rfl, rfl, rfl⟩, ⟨(.illegal0, 0x0), by decide, measWriting [], rfl, rfl⟩⟩

theorem witness_WriteWhileBusyOnlySetsOvr :
    (∃ (s : State) (v : Word) (rest : List Input), s.status.busy = true ∧ s.inputs = .host (.write 0x00 4 v) :: rest) ∧
      ∃ (s : State) (v : Word) (rest : List Input), s.status.busy = true ∧ s.inputs = .host (.write 0x08 4 v) :: rest :=
  ⟨⟨measWriting [wr 0x00 4], _, _, rfl, rfl⟩, ⟨measReading [wr 0x08 0x46], _, _, rfl, rfl⟩⟩

theorem witness_SetAddrStoresTheAddressWhileIdle :
    (∃ s : State, s.status.busy = false) ∧ (∃ s : State, s.status.busy = true) ∧
      ∃ (s : State) (v : Word) (rest : List Input), s.inputs = .host (.write 0x08 4 v) :: rest :=
  ⟨⟨idle [], rfl⟩, ⟨measWriting [], rfl⟩, ⟨idle [wr 0x08 0x45], _, _, rfl⟩⟩

theorem witness_ClearOvrClearsOnlyOnBitSeven :
    ∃ (s : State) (v : Word) (rest : List Input), s.inputs = .host (.write 0x04 4 v) :: rest ∧ s.status.ovr = true :=
  ⟨overrun (measWriting [wr 0x04 0x80]), _, _, rfl, rfl⟩

theorem witness_GetModeIsItsTwoReads :
    ∃ (s t u : State) (rest : List Input), s.inputs = .host (.read 0x0C 4) :: .host (.read 0x10 4) :: rest ∧
      step { s with inputs := [.host (.read 0x0C 4)] } = .next t ∧
      step { t with inputs := .host (.read 0x10 4) :: rest } = .next u :=
  ⟨idle [rd 0x0C, rd 0x10], _, _, [], rfl, rfl, rfl⟩

theorem witness_AnsweredFrameStartsTheSettleDelay :
    ∃ p ∈ frameInstrs, ∃ (s : State) (rest : List Input),
      s.pend = .write ∧ s.cur.cmd = p.2.1 ∧ s.inputs = .writeAnswer .ok :: rest :=
  ⟨(.busReset, 0x94, 1000), by decide, resetWriting [.writeAnswer .ok], [], rfl, rfl, rfl⟩

theorem witness_FailedFrameAbortsTheOperation :
    ∃ p ∈ frameInstrs, ∃ (s : State) (info : Word) (rest : List Input),
      s.pend = .write ∧ s.cur.cmd = p.2.1 ∧ s.inputs = .writeAnswer (.transportError info) :: rest :=
  ⟨(.busReadSerial, 0x89, 10000), by decide, serialWriting [.writeAnswer (.transportError 7)], 7, [], rfl, rfl, rfl⟩

theorem witness_UnansweredFrameWaits :
    (∃ p ∈ frameInstrs, ∃ s : State, s.pend = .write ∧ s.cur.cmd = p.2.1 ∧
        ∀ (a : WriteAnswer) (rest : List Input), s.inputs ≠ .writeAnswer a :: rest) ∧ ∃ s : State, s.inputs = [] :=
  ⟨⟨(.busMeasureFD, 0xFD, 10000), by decide, measWriting [], rfl, rfl, fun _ _ h => nomatch h⟩, ⟨idle [], rfl⟩⟩

theorem witness_EachFrameHasItsSettleDelay :
    ∃ p ∈ frameInstrs, ∃ (s : State) (rest : List Input), s.Inv ∧
      s.pend = .write ∧ s.cur.cmd = p.2.1 ∧ s.inputs = .writeAnswer .ok :: rest :=
  ⟨(.busMeasureFD, 0xFD, 10000), by decide, measWriting [.writeAnswer .ok], [], inv_measWriting _, rfl, rfl, rfl⟩

theorem witness_SettleTimerCountsDownToExpiry :
    (∃ s : State, s.inputs = [.tick] ∧ s.status.phase = .wait ∧ 1 < s.timer) ∧
      (∃ s : State, s.inputs = [.tick] ∧ s.status.phase = .wait ∧ s.timer = 1 ∧ s.cur.op = .reset) ∧
      (∃ s : State, s.inputs = [.tick] ∧ s.status.phase = .wait ∧ s.timer = 1 ∧ s.cur.op ≠ .reset) ∧
      ∃ s : State, s.inputs = [.tick] ∧ s.status.phase ≠ .wait :=
  ⟨⟨{ measWaiting [.tick] with timer := 2 }, rfl, rfl, by decide⟩, ⟨resetWaiting [.tick], rfl, rfl, rfl, rfl⟩,
    ⟨measWaiting [.tick], rfl, rfl, rfl, by decide⟩, ⟨idle [.tick], rfl, by decide⟩⟩

theorem witness_ReadAnswerCompletesOrAborts :
    (∃ s : State, s.pend = .read ∧ s.inputs = [.readAnswer (.transportError 2)]) ∧
      (∃ (s : State) (b : Frame), s.pend = .read ∧ s.inputs = [.readAnswer (.ok b)] ∧ frameValid b = false) ∧
      (∃ (s : State) (b : Frame), s.pend = .read ∧ s.inputs = [.readAnswer (.ok b)] ∧ frameValid b = true ∧
        s.cur.op = .readSerial) ∧
      ∃ (s : State) (b : Frame), s.pend = .read ∧ s.inputs = [.readAnswer (.ok b)] ∧ frameValid b = true ∧
        s.cur.op = .readMeasurement :=
  ⟨⟨measReading _, rfl, rfl⟩, ⟨measReading _, ⟨0, 0, 0, 0, 0, 0⟩, rfl, rfl, by decide +kernel⟩,
    ⟨serialReading _, serialFrame, rfl, rfl, by decide +kernel, rfl⟩,
    ⟨measReading _, measFrame, rfl, rfl, by decide +kernel, rfl⟩⟩

theorem witness_LateAnswersAreDiscarded :
    (∃ (s : State) (a : WriteAnswer), s.pend ≠ .write ∧ s.inputs = [.writeAnswer a]) ∧
      ∃ (s : State) (a : ReadAnswer), s.pend ≠ .read ∧ s.inputs = [.readAnswer a] :=
  ⟨⟨idle _, .ok, by decide, rfl⟩, ⟨idle _, .ok serialFrame, by decide, rfl⟩⟩

theorem witness_PhaseMovesOnlyAsTabled :
    ∃ (s t : State) (inp : Input) (rest : List Input), s.Inv ∧ s.inputs = inp :: rest ∧ step s = .next t ∧
      t.status.phase ≠ s.status.phase :=
  ⟨measWaiting [.tick], _, _, _, inv_measWaiting _, rfl, rfl, by decide⟩

theorem witness_OperationInProgressRunsOnUntouched :
    ∃ (s t : State) (inp : Input) (rest : List Input), s.Inv ∧ s.status.busy = true ∧
      s.inputs = inp :: rest ∧ step s = .next t ∧ inp ≠ .blockReset ∧
      (inp = .tick → s.status.phase ≠ .wait) ∧
      (∀ a, inp = .writeAnswer a → s.status.phase ≠ .write) ∧
      (∀ a, inp = .readAnswer a → s.status.phase ≠ .read) :=
  ⟨measWaiting [wr 0x00 4], _, _, _, inv_measWaiting _, rfl, rfl, rfl, by decide, by decide,
    fun _ h => (nomatch h), fun _ h => (nomatch h)⟩

theorem witness_RequestsAreIssuedInOrder :
    (∃ s t : State, s.Inv ∧ step s = .next t ∧ t.issued ≠ s.issued ∧ s.status.busy = false) ∧
      ∃ s t : State, s.Inv ∧ step s = .next t ∧ t.issued ≠ s.issued ∧ s.status.phase = .wait :=
  ⟨⟨idle [wr 0x00 1], _, inv_idle _, rfl, by decide, rfl⟩, ⟨measWaiting [.tick], _, inv_measWaiting _, rfl, by decide, rfl⟩⟩

theorem witness_SerialIsWrittenOnlyByItsRead :
    (∃ s t : State, step s = .next t ∧ t.results.serial ≠ s.results.serial) ∧
      ∃ (s : State) (v : Word) (rest : List Input), s.inputs = .host (.write 0x14 4 v) :: rest :=
  ⟨⟨serialReading [.readAnswer (.ok serialFrame)], _, test_serial_completes, by decide +kernel⟩,
    ⟨idle [wr 0x14 1], _, _, rfl⟩⟩

theorem witness_MeasurementIsWrittenOnlyByItsRead :
    ∃ s t : State, step s = .next t ∧ { t.results with serial := 0 } ≠ { s.results with serial := 0 } :=
  ⟨measReading [.readAnswer (.ok measFrame)], _, test_readAnswer_completes, by decide +kernel⟩

theorem witness_TerrIsWrittenOnlyByTransportError :
    ∃ s t : State, step s = .next t ∧ t.terr ≠ s.terr :=
  ⟨measReading [.readAnswer (.transportError 2)], _, rfl, by decide⟩

theorem witness_ModeChangesOnlyBySetMode :
    ∃ s t : State, step s = .next t ∧ t.mode ≠ s.mode :=
  ⟨idle [wr 0x00 0xF602], _, rfl, by decide⟩

theorem witness_OvrAndAddrChangeOnlyByTheirWrites :
    (∃ s t : State, step s = .next t ∧ s.status.ovr = false ∧ t.status.ovr = true) ∧
      (∃ s t : State, step s = .next t ∧ s.status.ovr = true ∧ t.status.ovr = false) ∧
      ∃ s t : State, step s = .next t ∧ t.addr ≠ s.addr :=
  ⟨⟨measWriting [wr 0x08 1], _, rfl, rfl, rfl⟩, ⟨overrun (measWriting [wr 0x04 0x80]), _, rfl, rfl, rfl⟩,
    ⟨idle [wr 0x08 0x45], _, rfl, by decide⟩⟩

theorem witness_ResultStaysUntilTheNextCommand :
    ∃ (s t : State) (op : BitVec 4), s.Inv ∧ s.resultOf op ∧ step s = .next t ∧
      (∀ (w : Word) (rest : List Input), s.inputs ≠ .host (.write 0x00 4 w) :: rest) ∧
      ∀ rest, s.inputs ≠ .blockReset :: rest :=
  ⟨completed [rd 0x18], _, 0x4, inv_completed _, ⟨rfl, rfl, rfl⟩, rfl, fun _ _ h => (nomatch h), fun _ h => (nomatch h)⟩

theorem witness_FlagsChangeOnlyAsTabled :
    (∃ s t : State, s.Inv ∧ step s = .next t ∧ s.status.valid = false ∧ t.status.valid = true) ∧
      (∃ s t : State, s.Inv ∧ step s = .next t ∧ s.status.valid = true ∧ t.status.valid = false) ∧
      (∃ s t : State, s.Inv ∧ step s = .next t ∧ t.status.err ≠ s.status.err) ∧
      (∃ s t : State, s.Inv ∧ step s = .next t ∧ t.status.lastOp ≠ s.status.lastOp) ∧
      (∃ s t : State, s.Inv ∧ step s = .next t ∧ s.status.busy = false ∧ t.status.busy = true) ∧
      ∃ s t : State, s.Inv ∧ step s = .next t ∧ s.status.busy = true ∧ t.status.busy = false ∧ s.status.phase = .wait :=
  ⟨⟨measReading [.readAnswer (.ok measFrame)], _, inv_measReading _, test_readAnswer_completes, rfl, rfl⟩,
    ⟨completed [wr 0x00 1], _, inv_completed _, rfl, rfl, rfl⟩,
    ⟨measWriting [.writeAnswer (.transportError 7)], _, inv_measWriting _, rfl, by decide⟩,
    ⟨idle [wr 0x00 7], _, inv_idle _, rfl, by decide⟩, ⟨idle [wr 0x00 1], _, inv_idle _, rfl, rfl, rfl⟩,
    ⟨resetWaiting [.tick], _, inv_resetWaiting _, rfl, rfl, rfl, rfl⟩⟩

theorem witness_EveryStepKeepsTheInvariant :
    ∃ s t : State, s.Inv ∧ step s = .next t ∧ t ≠ s :=
  ⟨measWaiting [.tick], _, inv_measWaiting _, rfl, by decide⟩

theorem witness_InvariantStatesNeverStop :
    ∃ s : State, s.Inv ∧ s.pend = .read :=
  ⟨serialReading [.readAnswer (.ok serialFrame)], inv_serialReading _, rfl⟩

theorem witness_FlippedBitInvalidatesAFrame :
    ∃ (b : Frame) (k j : Nat), k < 8 ∧ k = 7 ∧ j < 48 ∧ j = 47 ∧ frameValid b = true :=
  ⟨serialFrame, 7, 47, by decide, rfl, by decide, rfl, by decide +kernel⟩

theorem witness_HumidityClampThresholds :
    (∃ h : Half, h.toNat ≤ 3145 ∧ h.toNat = 3145) ∧ (∃ h : Half, 55574 ≤ h.toNat ∧ h.toNat = 55574) ∧
      ∃ h : Half, 3145 < h.toNat ∧ h.toNat < 55574 ∧ h.toNat = 3146 :=
  ⟨⟨3145, by decide⟩, ⟨55574, by decide⟩, ⟨3146, by decide⟩⟩

theorem witness_TemperatureIsMonotoneAndFinite :
    (∃ t u : Half, t.toNat < u.toNat ∧ t = 0 ∧ u = 1) ∧ ∃ t u : Half, t.toNat < u.toNat ∧ t = 0xFFFE ∧ u = 0xFFFF :=
  ⟨⟨0, 1, by decide, rfl, rfl⟩, ⟨0xFFFE, 0xFFFF, by decide, rfl, rfl⟩⟩

theorem witness_RoundingIsNearestTiesToEven :
    ∃ n d m : Nat, 0 < d ∧ roundMag n d < 0x7FF <<< 52 ∧ m < 0x7FF <<< 52 ∧ m ≠ roundMag n d :=
  ⟨1, 3, 0, by decide, by decide +kernel, by decide, by decide +kernel⟩

theorem witness_ResetCommandRunsToItsEnd :
    ∃ (s : State) (w : Word) (rest : List Input), s.Inv ∧ s.status.phase = .idle ∧ w.extractLsb' 0 4 = 0x1#4 ∧
      s.inputs = .host (.write 0x00 4 w) :: .writeAnswer .ok ::
        (List.replicate (1000 * Config.ticksPerUs) .tick ++ rest) :=
  have ⟨s, hs, hp, hm, hi⟩ := idle_run 1 (1000 * Config.ticksPerUs) []
  ⟨s, 1, [], hs, hp, by decide, hi⟩

theorem witness_ReadSerialRunsToItsResult :
    ∃ (s : State) (w : Word) (b : Frame) (rest : List Input), s.Inv ∧ s.status.phase = .idle ∧ w.extractLsb' 0 4 = 0x3#4 ∧
      frameValid b = true ∧
      s.inputs = .host (.write 0x00 4 w) :: .writeAnswer .ok ::
        (List.replicate (10000 * Config.ticksPerUs) .tick ++ .readAnswer (.ok b) :: rest) :=
  have ⟨s, hs, hp, hm, hi⟩ := idle_run 3 (10000 * Config.ticksPerUs) [.readAnswer (.ok serialFrame)]
  ⟨s, 3, serialFrame, [], hs, hp, by decide, by decide +kernel, hi⟩

theorem witness_ReadMeasurementRunsToItsResult :
    ∃ (s : State) (w : Word) (b : Frame) (rest : List Input), s.Inv ∧ s.status.phase = .idle ∧ w.extractLsb' 0 4 = 0x4#4 ∧
      frameValid b = true ∧
      s.inputs = .host (.write 0x00 4 w) :: .writeAnswer .ok ::
        (List.replicate (s.mode.delayUs.toNat * Config.ticksPerUs) .tick ++ .readAnswer (.ok b) :: rest) :=
  have ⟨s, hs, hp, hm, hi⟩ := idle_run 4 (10000 * Config.ticksPerUs) [.readAnswer (.ok measFrame)]
  ⟨s, 4, measFrame, [], hs, hp, by decide, by decide +kernel, hm ▸ hi⟩

end Sys2Proof.Tests
end

section
/-! What a step runs: the instruction that the decoder reads from the transfers. -/

namespace Sys2Proof.Machine

/-- A step runs the instruction that the transfers decode to, after the inputs that it takes. -/
theorem step_of_decode {s : State} {i : Instr} (h : decode s.transfers = .ok i) :
    step s = exec i (s.withInputs (s.inputs.drop (inputsTaken i))) := by
  simp only [step, fetch, h]

/-- An instruction takes every transfer of its encoding, where they are all host accesses. -/
theorem inputsTaken_eq_length {i : Instr} (h : ∀ t ∈ encode i, ∃ a, t = .host a) :
    inputsTaken i = (encode i).length := by
  refine List.countP_eq_length.mpr fun t ht => ?_
  obtain ⟨a, rfl⟩ := h t ht
  rfl

theorem encode_decodeCommand_host (w : Word) : ∀ t ∈ encode (decodeCommand w), ∃ a, t = .host a := by
  unfold decodeCommand
  split <;> simp [encode, encodeCommand]

theorem encode_decodeWrite_host {off : Byte} {v : Word} {i : Instr} (h : decodeWrite off v = .ok i) :
    ∀ t ∈ encode i, ∃ a, t = .host a := by
  unfold decodeWrite at h
  split at h <;> cases h
  · exact encode_decodeCommand_host v
  · simp [encode]
  · simp [encode]

/-- What a host access decodes to is encoded in host accesses: no bus frame comes from the host. -/
theorem encode_host_of_decode_host {a : Access} {more : List Transfer} {i : Instr}
    (h : decode (.host a :: more) = .ok i) : ∀ t ∈ encode i, ∃ b, t = .host b := by
  cases a with
  | write off width v =>
    simp only [decode] at h
    split at h
    · exact encode_decodeWrite_host h
    · cases h
  | read off width =>
    simp only [decode] at h
    split_ifs at h
    cases h
    simp [encode]

/-- Settles O4: a host access takes its whole encoding from the inputs (`encode_host_of_decode_host`), a bus frame
takes nothing (`decodeFrame_takes_no_input`). -/
theorem stepRunsTheDecodedInstruction : Obligations.StepRunsTheDecodedInstruction := by
  unfold Obligations.StepRunsTheDecodedInstruction
  constructor
  · intro s a rest i hi hd
    obtain ⟨more, hm⟩ := transfers_host hi
    have hhost : ∀ t ∈ encode i, ∃ b, t = .host b := encode_host_of_decode_host (hm ▸ hd)
    rw [step_of_decode hd, inputsTaken_eq_length hhost]
    rfl
  · intro s a rest i hi hp hd
    have ht : s.transfers = [.frame s.cur.cmd] := by simp [State.transfers, hi, hp]
    have hf : decodeFrame s.cur.cmd = some i := by
      simp only [decode] at hd
      split at hd <;> cases hd
      assumption
    rw [step_of_decode (ht ▸ hd), decodeFrame_takes_no_input hf]
    rfl

end Sys2Proof.Machine
end

section
/-! The rounding of `roundMag` (R8): the binade of a quotient (`droppedBits_bounds`), the value of an encoding
(`magUnits_encode`), the nearest integer (`roundQuotient_nearest`), and from these the nearest binary64 number. -/

namespace Sys2Proof.Machine

/-! The integer logarithm by halving. -/

theorem floorLog2_cons (k : Nat) (ks : List Nat) (n : Nat) :
    floorLog2 (k :: ks) n = if 2 ^ k ≤ n then k + floorLog2 ks (n / 2 ^ k) else floorLog2 ks n := by
  simp only [floorLog2, cond_eq_ite, Nat.ble_eq, Nat.shiftLeft_eq, one_mul, Nat.shiftRight_eq_div_pow]

theorem log_eq_add_log_div {k n : Nat} (h : 2 ^ k ≤ n) : Nat.log 2 n = k + Nat.log 2 (n / 2 ^ k) := by
  have hq : n / 2 ^ k ≠ 0 := (Nat.div_pos h (by positivity)).ne'
  apply Nat.log_eq_of_pow_le_of_lt_pow
  · rw [pow_add, mul_comm, ← Nat.le_div_iff_mul_le (by positivity)]
    exact Nat.pow_log_le_self 2 hq
  · rw [add_assoc, pow_add, mul_comm, ← Nat.div_lt_iff_lt_mul (by positivity)]
    exact Nat.lt_pow_succ_log_self one_lt_two _

/-- With the widths `2^(j-1), ..., 2, 1` the halving finds the logarithm of every number below `2^(2^j)`. -/
theorem floorLog2_eq_log (j : Nat) {n : Nat} (h : n < 2 ^ 2 ^ j) :
    floorLog2 ((List.range j).reverse.map (2 ^ ·)) n = Nat.log 2 n := by
  induction j generalizing n with
  | zero => exact (Nat.log_of_lt (by simpa using h)).symm
  | succ j ih =>
    simp only [List.range_succ, List.reverse_concat, List.map_cons, floorLog2_cons]
    split_ifs with hk
    · have hlt : n / 2 ^ 2 ^ j < 2 ^ 2 ^ j := by
        rwa [Nat.div_lt_iff_lt_mul (by positivity), ← pow_add, ← two_mul, ← pow_succ']
      rw [ih hlt, ← log_eq_add_log_div hk]
    · exact ih (not_le.mp hk)

/-- Past the range of its widths, `floorLog2` answers their sum. -/
theorem floorLog2_eq_sum {ks : List Nat} {n : Nat} (h : 2 ^ ks.sum ≤ n) : floorLog2 ks n = ks.sum := by
  induction ks generalizing n with
  | nil => rfl
  | cons k ks ih =>
    rw [List.sum_cons, pow_add] at h
    have hk : 2 ^ k ≤ n := le_trans (Nat.le_mul_of_pos_right _ (by positivity)) h
    have hrest : 2 ^ ks.sum ≤ n / 2 ^ k := by
      rwa [Nat.le_div_iff_mul_le (by positivity), mul_comm]
    rw [floorLog2_cons, if_pos hk, ih hrest, List.sum_cons]

theorem droppedBits_eq_log {q : Nat} (h : droppedBits q < 2047) : droppedBits q = Nat.log 2 q - 52 := by
  have hq : q < 2 ^ log2Widths.sum := by
    by_contra hge
    rw [droppedBits, floorLog2_eq_sum (not_lt.mp hge)] at h
    exact absurd h (by decide)
  have hwidths : log2Widths = (List.range 12).reverse.map (2 ^ ·) := by decide
  have hrange : q < 2 ^ 2 ^ 12 := hq.trans_le (Nat.pow_le_pow_right two_pos (by decide))
  rw [droppedBits, hwidths, floorLog2_eq_log 12 hrange]

/-- A quotient in the binade of its `s` dropped bits: 53 significant bits above them, or fewer where `s = 0`. -/
theorem droppedBits_bounds {q : Nat} (h : droppedBits q < 2047) :
    q < 2 ^ 53 * 2 ^ droppedBits q ∧ (droppedBits q = 0 ∨ 2 ^ 52 * 2 ^ droppedBits q ≤ q) := by
  rw [droppedBits_eq_log h, ← pow_add, ← pow_add]
  constructor
  · exact (Nat.lt_pow_succ_log_self one_lt_two q).trans_le (Nat.pow_le_pow_right two_pos (by omega))
  · refine (Nat.eq_zero_or_pos _).imp_right fun hpos => ?_
    rw [Nat.add_sub_cancel' (by omega)]
    refine Nat.pow_log_le_self 2 ?_
    rintro rfl
    simp at hpos

/-! The value of an encoding. -/

/-- The encoding `s * 2^52 + m` has the value `m * 2^s`, also where the significand `m` has carried to 2^53. -/
theorem magUnits_encode {s m : Nat} (hlo : s = 0 ∨ 2 ^ 52 ≤ m) (hhi : m ≤ 2 ^ 53) :
    magUnits (s * 2 ^ 52 + m) = m * 2 ^ s := by
  simp only [magUnits, cond_eq_ite, Nat.beq_eq, Nat.shiftLeft_eq, Nat.shiftRight_eq_div_pow, one_mul]
  obtain hlt | ⟨hge, hlt⟩ | rfl : m < 2 ^ 52 ∨ (2 ^ 52 ≤ m ∧ m < 2 ^ 53) ∨ m = 2 ^ 53 := by omega
  · obtain rfl : s = 0 := by omega
    rw [if_pos (by omega)]
    simp
  · rw [if_neg (by omega), show (s * 2 ^ 52 + m) / 2 ^ 52 - 1 = s by omega,
      show (s * 2 ^ 52 + m) % 2 ^ 52 + 2 ^ 52 = m by omega]
  · rw [if_neg (by omega), show (s * 2 ^ 52 + 2 ^ 53) / 2 ^ 52 - 1 = s + 1 by omega,
      show (s * 2 ^ 52 + 2 ^ 53) % 2 ^ 52 + 2 ^ 52 = 2 ^ 52 by omega]
    ring

/-- Every encoding splits into the bits dropped below its significand and the significand. -/
theorem exists_encode (k : Nat) :
    ∃ s m, k = s * 2 ^ 52 + m ∧ (s = 0 ∨ 2 ^ 52 ≤ m) ∧ m < 2 ^ 53 := by
  refine ⟨k / 2 ^ 52 - 1, k - (k / 2 ^ 52 - 1) * 2 ^ 52, ?_, ?_, ?_⟩ <;> omega

theorem magUnits_strictMono : StrictMono magUnits := by
  refine strictMono_nat_of_lt_succ fun k => ?_
  obtain ⟨s, m, rfl, hlo, hhi⟩ := exists_encode k
  rw [add_assoc, magUnits_encode hlo hhi.le, magUnits_encode (by omega) hhi]
  exact Nat.mul_lt_mul_of_pos_right (Nat.lt_succ_self m) (by positivity)

/-- From the binade of `s` on, every value is a whole number of `2^s`. -/
theorem dvd_magUnits {s k : Nat} (h : s = 0 ∨ s * 2 ^ 52 + 2 ^ 52 ≤ k) : 2 ^ s ∣ magUnits k := by
  obtain ⟨s', m, rfl, hlo, hhi⟩ := exists_encode k
  rw [magUnits_encode hlo hhi.le]
  exact Dvd.dvd.mul_left (pow_dvd_pow 2 (by omega)) m

/-! The nearest integer. -/

/-- The distance of `k` to `n / d`, times `d`. -/
def quotientError (n d k : Nat) : Nat := (((k * d : Nat) : Int) - n).natAbs

theorem quotientError_mul (n d j u : Nat) : quotientError n d (j * u) = quotientError n (d * u) j := by
  simp only [quotientError, mul_assoc, mul_comm u d]

theorem quotientError_div (n d : Nat) : quotientError n d (n / d) = n % d := by
  have hdiv : n / d * d + n % d = n := Nat.div_add_mod' n d
  unfold quotientError
  omega

theorem quotientError_div_succ {n d : Nat} (hd : 0 < d) : quotientError n d (n / d + 1) = d - n % d := by
  have hdiv : n / d * d + n % d = n := Nat.div_add_mod' n d
  have hmod : n % d < d := Nat.mod_lt n hd
  rw [quotientError, Nat.succ_mul]
  omega

/-- Two integers lie at least 1 apart, so their distances to `n / d` add up to 1 or more. -/
theorem le_quotientError_add {n d j k : Nat} (h : j ≠ k) : d ≤ quotientError n d j + quotientError n d k := by
  have hsep : (j + 1) * d ≤ k * d ∨ (k + 1) * d ≤ j * d :=
    (Nat.lt_or_gt_of_ne h).imp (Nat.mul_le_mul_right d) (Nat.mul_le_mul_right d)
  rw [Nat.succ_mul, Nat.succ_mul] at hsep
  unfold quotientError
  omega

/-- Below `n / d`, a smaller number is farther away. -/
theorem quotientError_lt_of_lt {n d j k : Nat} (hd : 0 < d) (hjk : j < k) (hk : k * d ≤ n) :
    quotientError n d k < quotientError n d j := by
  have hlt : j * d < k * d := Nat.mul_lt_mul_of_pos_right hjk hd
  unfold quotientError
  omega

theorem roundQuotient_floor_or_ceil (n d : Nat) : n / d ≤ roundQuotient n d ∧ roundQuotient n d ≤ n / d + 1 := by
  unfold roundQuotient
  cases _ || _ <;> simp

/-- The rounded quotient is at most half away, and exactly half away only where it is even. -/
theorem roundQuotient_half {n d : Nat} (hd : 0 < d) :
    2 * quotientError n d (roundQuotient n d) ≤ d ∧
      (2 * quotientError n d (roundQuotient n d) = d → roundQuotient n d % 2 = 0) := by
  have hmod : n % d < d := Nat.mod_lt n hd
  simp only [roundQuotient, cond_eq_ite, Bool.or_eq_true, Bool.and_eq_true, Nat.blt_eq, Nat.beq_eq]
  split_ifs with hup
  · rw [quotientError_div_succ hd]
    omega
  · rw [quotientError_div]
    omega

/-- No integer is nearer to `n / d` than the rounded quotient, and another shares its distance only where it is
even. -/
theorem roundQuotient_nearest {n d : Nat} (hd : 0 < d) (k : Nat) :
    quotientError n d (roundQuotient n d) ≤ quotientError n d k ∧
      (quotientError n d (roundQuotient n d) = quotientError n d k → k ≠ roundQuotient n d →
        roundQuotient n d % 2 = 0) := by
  by_cases hk : k = roundQuotient n d
  · simp [hk]
  · obtain ⟨hhalf, heven⟩ := roundQuotient_half (n := n) hd
    have hsep := le_quotientError_add (n := n) (d := d) hk
    exact ⟨by omega, fun he _ => heven (by omega)⟩

/-! The nearest binary64 number. -/

/-- In the binade of `s`, the quotient rounded to a multiple of `2^s` is the nearest value of any encoding: the values
of that binade and above are multiples of `2^s`, and those below it are farther away than its first number. -/
theorem encode_roundQuotient_nearest {n d s : Nat} (hd : 0 < d) (hhi : n / d < 2 ^ 53 * 2 ^ s)
    (hlo : s = 0 ∨ 2 ^ 52 * 2 ^ s ≤ n / d) (k : Nat) :
    quotientError n d (magUnits (s * 2 ^ 52 + roundQuotient n (d * 2 ^ s))) ≤ quotientError n d (magUnits k) ∧
      (quotientError n d (magUnits (s * 2 ^ 52 + roundQuotient n (d * 2 ^ s))) = quotientError n d (magUnits k) →
        k ≠ s * 2 ^ 52 + roundQuotient n (d * 2 ^ s) → (s * 2 ^ 52 + roundQuotient n (d * 2 ^ s)) % 2 = 0) := by
  have hu : 0 < 2 ^ s := by positivity
  have hfloor : n / (d * 2 ^ s) < 2 ^ 53 := by
    rwa [← Nat.div_div_eq_div_mul, Nat.div_lt_iff_lt_mul hu]
  have hceil : s = 0 ∨ 2 ^ 52 ≤ n / (d * 2 ^ s) := by
    rwa [← Nat.div_div_eq_div_mul, Nat.le_div_iff_mul_le hu]
  obtain ⟨hge, hle⟩ := roundQuotient_floor_or_ceil n (d * 2 ^ s)
  have hnear := roundQuotient_nearest (n := n) (d := d * 2 ^ s) (by positivity)
  generalize roundQuotient n (d * 2 ^ s) = r at *
  have hvalue : magUnits (s * 2 ^ 52 + r) = r * 2 ^ s := magUnits_encode (by omega) (by omega)
  by_cases hk : s = 0 ∨ s * 2 ^ 52 + 2 ^ 52 ≤ k
  · obtain ⟨j, hj⟩ := dvd_magUnits hk
    rw [mul_comm] at hj
    obtain ⟨hmin, heven⟩ := hnear j
    rw [← quotientError_mul, ← quotientError_mul, ← hvalue, ← hj] at hmin heven
    refine ⟨hmin, fun he hne => ?_⟩
    have hjr : j ≠ r := by
      rintro rfl
      exact hne (magUnits_strictMono.injective (hj.trans hvalue.symm))
    have := heven he hjr
    omega
  · obtain ⟨hs, hklt⟩ := not_or.mp hk
    have hfirst : magUnits k < 2 ^ 52 * 2 ^ s := by
      rw [← magUnits_encode (.inr le_rfl) (by norm_num)]
      exact magUnits_strictMono (not_le.mp hklt)
    have hbelow : 2 ^ 52 * 2 ^ s * d ≤ n := (Nat.le_div_iff_mul_le hd).mp (hlo.resolve_left hs)
    have hmin := (hnear (2 ^ 52)).1
    rw [← quotientError_mul, ← quotientError_mul, ← hvalue] at hmin
    have hlt := hmin.trans_lt (quotientError_lt_of_lt hd hfirst hbelow)
    exact ⟨hlt.le, fun he => absurd he hlt.ne⟩

/-- A finite rounding is the encoding of the quotient rounded in its binade. -/
theorem roundMag_of_finite {n d : Nat} (h : roundMag n d < 0x7FF <<< 52) :
    droppedBits (n * 2 ^ 1074 / d) < 2047 ∧
      roundMag n d = droppedBits (n * 2 ^ 1074 / d) * 2 ^ 52 +
        roundQuotient (n * 2 ^ 1074) (d * 2 ^ droppedBits (n * 2 ^ 1074 / d)) := by
  simp only [roundMag, Nat.shiftLeft_eq] at h ⊢
  generalize n * 2 ^ 1074 = scaled at h ⊢
  omega

/-- Settles O50: the quotient is rounded in its own binade (`droppedBits_bounds`), and there the rounding to an integer
is the rounding to a binary64 number (`encode_roundQuotient_nearest`). -/
theorem roundingIsNearestTiesToEven : Obligations.RoundingIsNearestTiesToEven := by
  unfold Obligations.RoundingIsNearestTiesToEven
  intro n d m hd hfin _ error
  have herror (k : Nat) : error k = quotientError (n * 2 ^ 1074) d (magUnits k) := by
    rw [quotientError, Nat.cast_mul, Nat.cast_mul, ← Nat.one_shiftLeft]
  obtain ⟨hs, hround⟩ := roundMag_of_finite hfin
  obtain ⟨hhi, hlo⟩ := droppedBits_bounds hs
  rw [herror, herror, hround]
  exact encode_roundQuotient_nearest hd hhi hlo m

end Sys2Proof.Machine
end

section
/-! The state after block reset (R43). -/

namespace Sys2Proof.Machine

/-- Settles O1: each value is one of `State.reset` or `modeTable`. -/
theorem resetHoldsTheSpecifiedValues : Obligations.ResetHoldsTheSpecifiedValues := by
  unfold Obligations.ResetHoldsTheSpecifiedValues
  exact ⟨rfl, rfl, rfl, rfl, rfl, rfl, rfl, rfl⟩

/-- Settles O41: the mode is the first row of the table, the phase is IDLE, and nothing is in progress, has ended or
was issued. -/
theorem resetMeetsTheInvariant : Obligations.ResetMeetsTheInvariant := by
  unfold Obligations.ResetMeetsTheInvariant
  exact
    { mode_in_table := List.mem_cons_self
      busy_phase := by decide
      pend_phase := rfl
      latched := nofun
      latched_addr := nofun
      last_op := nofun
      read_op := nofun
      wait_timer := nofun
      busy_outcome := nofun
      valid_outcome := nofun
      err_op := trivial
      issued_legal := nofun
      request_issued := nofun }

end Sys2Proof.Machine
end

section
/-! The words that the host reads: the STATUS word field by field (R24), and the window's map (R21). -/

namespace Sys2Proof.Machine

/-! The fields of the STATUS word, from bit 0 up. -/

/-- The lowest bit of a word whose last field is one bit. -/
theorem getLsbD_zero_append_ofBool {n : Nat} (x : BitVec n) (b : Bool) :
    (x ++ BitVec.ofBool b).getLsbD 0 = b := by
  rw [BitVec.getLsbD_append, if_pos (by decide)]
  simp

theorem word_busy (st : Status) : st.word.getLsbD 0 = st.busy :=
  getLsbD_zero_append_ofBool _ _

theorem word_valid (st : Status) : st.word.getLsbD 1 = st.valid := by
  rw [Status.word, BitVec.getLsbD_append, if_neg (by decide)]
  exact getLsbD_zero_append_ofBool _ _

theorem word_reserved_low (st : Status) : st.word.extractLsb' 2 2 = 0 := by
  rw [Status.word]
  iterate 2 rw [BitVec.extractLsb'_append_eq_of_le (by decide)]
  exact BitVec.extractLsb'_append_eq_right

theorem word_err (st : Status) : st.word.extractLsb' 4 3 = st.err.code := by
  rw [Status.word]
  iterate 3 rw [BitVec.extractLsb'_append_eq_of_le (by decide)]
  exact BitVec.extractLsb'_append_eq_right

theorem word_ovr (st : Status) : st.word.getLsbD 7 = st.ovr := by
  rw [Status.word]
  iterate 4 rw [BitVec.getLsbD_append, if_neg (by decide)]
  exact getLsbD_zero_append_ofBool _ _

theorem word_lastOp (st : Status) : st.word.extractLsb' 8 4 = st.lastOp := by
  rw [Status.word]
  iterate 5 rw [BitVec.extractLsb'_append_eq_of_le (by decide)]
  exact BitVec.extractLsb'_append_eq_right

theorem word_phase (st : Status) : st.word.extractLsb' 12 3 = st.phase.code := by
  rw [Status.word]
  iterate 6 rw [BitVec.extractLsb'_append_eq_of_le (by decide)]
  exact BitVec.extractLsb'_append_eq_right

theorem word_reserved_high (st : Status) : st.word.extractLsb' 15 17 = 0 := by
  rw [Status.word]
  iterate 6 rw [BitVec.extractLsb'_append_eq_of_le (by decide)]
  exact BitVec.extractLsb'_append_eq_left

/-- Settles O11: one lemma per field of the word, and the codes by the kinds of errors and phases. -/
theorem statusWordLayout : Obligations.StatusWordLayout := by
  unfold Obligations.StatusWordLayout
  intro st
  refine ⟨word_busy st, word_valid st, word_reserved_low st, ?_, word_ovr st, word_lastOp st, ?_,
    word_reserved_high st⟩
  · rw [word_err]
    cases st.err <;> rfl
  · rw [word_phase]
    cases st.phase <;> rfl

/-! The window's map. -/

theorem readWindow_word {off : Byte} (s : State) (h : off.toNat % 4 = 0) :
    readWindow s off 4 = readRegister s off := by
  simp [readWindow, Access.wellFormed, Access.isWord, Access.isAligned, h]

theorem readWindow_of_not_wellFormed {off : Byte} {width : Nat} (s : State)
    (h : width ≠ 4 ∨ off.toNat % 4 ≠ 0) : readWindow s off width = 0 := by
  refine if_neg fun hw => ?_
  simp only [Access.wellFormed, Access.isWord, Access.isAligned, Bool.and_eq_true, beq_iff_eq] at hw
  omega

theorem readRegister_unmapped {off : Byte} (s : State) (h : 0x2C#8 < off) : readRegister s off = 0 := by
  have hoff : 0x2C < off.toNat := h
  unfold readRegister
  split
  case h_12 => rfl
  all_goals omega

theorem readWindow_addr (s : State) : readWindow s 0x08 4 = s.addr.setWidth 32 :=
  (BitVec.setWidth_eq_append (by decide)).symm

theorem readWindow_mode (s : State) :
    readWindow s 0x0C 4 = (s.mode.index.setWidth 32 <<< 8) ||| s.mode.code.setWidth 32 := by
  have hword : readWindow s 0x0C 4 = (0#20 ++ s.mode.index ++ s.mode.code).setWidth 32 := by
    rw [BitVec.setWidth_eq]
    rfl
  rw [hword, BitVec.setWidth_append_append_eq_shiftLeft_setWidth_or]
  simp

theorem readWindow_raw (s : State) :
    readWindow s 0x18 4 = (s.results.hRaw.setWidth 32 <<< 16) ||| s.results.tRaw.setWidth 32 := by
  have hword : readWindow s 0x18 4 = (s.results.hRaw ++ s.results.tRaw).setWidth 32 := by
    rw [BitVec.setWidth_eq]
    rfl
  rw [hword, BitVec.setWidth_append_eq_shiftLeft_setWidth_or]

/-- Settles O10: every offset of the map by the definition of `readRegister`, with the words of more than one field
in `readWindow_addr`, `readWindow_mode` and `readWindow_raw`, and 0 off the map. -/
theorem hostReadReturnsItsRegister : Obligations.HostReadReturnsItsRegister := by
  unfold Obligations.HostReadReturnsItsRegister
  constructor
  · intro s off width rest hi hg
    exact step_read hi hg
  · intro s
    refine ⟨rfl, rfl, readWindow_addr s, readWindow_mode s, rfl, rfl, readWindow_raw s, rfl, rfl, rfl, rfl, rfl,
      fun off h => ?_, fun off h => readWindow_of_not_wellFormed s (.inr h),
      fun off width h => readWindow_of_not_wellFormed s (.inl h)⟩
    by_cases ha : off.toNat % 4 = 0
    · rw [readWindow_word s ha, readRegister_unmapped s h]
    · exact readWindow_of_not_wellFormed s (.inr ha)

end Sys2Proof.Machine
end


section
/-! What one step can write: each register's only writers, from the inversion `step_kind`. -/

namespace Sys2Proof.Machine

variable {s t : State}

/-! A tick (R191). -/

/-- What a tick can leave behind: outside WAIT nothing changes, and in WAIT the timer counts down, or expires and ends
a RESET or starts the read (R145). -/
theorem timerTick_cases (s : State) :
    (s.status.phase ≠ .wait ∧ timerTick s = s) ∨
    (s.status.phase = .wait ∧ 1 < s.timer ∧ timerTick s = { s with timer := s.timer - 1 }) ∨
    (s.status.phase = .wait ∧ s.timer ≤ 1 ∧ s.cur.op = .reset ∧
      timerTick s = finishReset { s with timer := 0 }) ∨
    (s.status.phase = .wait ∧ s.timer ≤ 1 ∧ s.cur.op ≠ .reset ∧
      timerTick s = startRead { s with timer := 0 }) := by
  by_cases hp : s.status.phase = .wait
  · obtain ht | ht := le_or_gt s.timer 1
    · by_cases ho : s.cur.op = .reset
      · exact .inr (.inr (.inl ⟨hp, ht, ho, (timerTick_expire hp ht).trans (expire_reset ho)⟩))
      · exact .inr (.inr (.inr ⟨hp, ht, ho, (timerTick_expire hp ht).trans (expire_read ho)⟩))
    · exact .inr (.inl ⟨hp, ht, timerTick_count hp ht⟩)
  · exact .inl ⟨hp, timerTick_outside hp⟩

/-- A tick writes no register but BUSY and PHASE. -/
theorem timerTick_frame (s : State) :
    (timerTick s).addr = s.addr ∧ (timerTick s).results = s.results ∧ (timerTick s).terr = s.terr ∧
      (timerTick s).status.ovr = s.status.ovr := by
  obtain ⟨_, he⟩ | ⟨_, _, he⟩ | ⟨_, _, _, he⟩ | ⟨_, _, _, he⟩ := timerTick_cases s <;> rw [he] <;>
    exact ⟨rfl, rfl, rfl, rfl⟩

@[simp] theorem timerTick_addr (s : State) : (timerTick s).addr = s.addr := (timerTick_frame s).1
@[simp] theorem timerTick_results (s : State) : (timerTick s).results = s.results := (timerTick_frame s).2.1
@[simp] theorem timerTick_terr (s : State) : (timerTick s).terr = s.terr := (timerTick_frame s).2.2.1
@[simp] theorem timerTick_ovr (s : State) : (timerTick s).status.ovr = s.status.ovr := (timerTick_frame s).2.2.2

/-! The result registers (R32 to R35). -/

/-- The writers of the result registers: block reset and the two reads' successful ends. -/
theorem results_of_step (h : step s = .next t) :
    t.results = s.results ∨ (∃ rest, s.inputs = .blockReset :: rest) ∨
    ∃ (b : Frame) (rest : List Input), s.inputs = .readAnswer (.ok b) :: rest ∧ s.pend = .read ∧
      frameValid b = true ∧
      ((s.cur.op = .readSerial ∧ t.results = (storeSerial b s).results) ∨
        (s.cur.op = .readMeasurement ∧ t.results = (storeMeasurement b s).results)) := by
  cases step_kind h with
  | blockReset hi => exact .inr (.inl ⟨_, hi⟩)
  | readSerial b hi hp hv ho => exact .inr (.inr ⟨b, _, hi, hp, hv, .inl ⟨ho, rfl⟩⟩)
  | readMeasurement b hi hp hv ho => exact .inr (.inr ⟨b, _, hi, hp, hv, .inr ⟨ho, rfl⟩⟩)
  | tick hi => exact .inl (timerTick_results _)
  | _ => exact .inl rfl

/-- Settles O34: of the writers of the results, the measurement's leaves SERIAL (`results_of_step`). -/
theorem serialIsWrittenOnlyByItsRead : Obligations.SerialIsWrittenOnlyByItsRead := by
  unfold Obligations.SerialIsWrittenOnlyByItsRead
  refine ⟨fun s t h hne => ?_, fun s => rfl, fun s v rest hi => ?_, rfl⟩
  · obtain hr | hr | ⟨b, rest, hi, hp, hv, ⟨ho, hr⟩ | ⟨_, hr⟩⟩ := results_of_step h
    · exact absurd (congrArg Results.serial hr) hne
    · exact .inl hr
    · exact .inr ⟨b, rest, hi, hp, ho, hv, congrArg Results.serial hr⟩
    · exact absurd (congrArg Results.serial hr) hne
  · exact step_write_ignored hi fun _ => by decide

/-- The two halves of a stored binary64 number are that number (R34, R35). -/
theorem high_append_low (x : F64) : x.extractLsb' 32 32 ++ x.extractLsb' 0 32 = x := by
  simpa using BitVec.extractLsb'_append_extractLsb'_eq_extractLsb' (x := x) (start₁ := 0) (len₁ := 32)
    (start₂ := 32) (len₂ := 32) rfl

/-- Settles O35: of the writers of the results, the serial number's leaves everything but SERIAL
(`results_of_step`). -/
theorem measurementIsWrittenOnlyByItsRead : Obligations.MeasurementIsWrittenOnlyByItsRead := by
  unfold Obligations.MeasurementIsWrittenOnlyByItsRead
  intro s t h hne
  obtain hr | hr | ⟨b, rest, hi, hp, hv, ⟨_, hr⟩ | ⟨ho, hr⟩⟩ := results_of_step h
  · exact absurd (by rw [hr]) hne
  · exact .inl hr
  · exact absurd (by rw [hr, storeSerial_results]) hne
  · rw [hr, storeMeasurement_results]
    exact .inr ⟨b, rest, hi, hp, ho, hv, rfl, rfl, high_append_low _, high_append_low _⟩

/-! TERR (R36). -/

/-- Settles O36: an error of any other kind leaves TERR (R183). -/
theorem terrIsWrittenOnlyByTransportError : Obligations.TerrIsWrittenOnlyByTransportError := by
  unfold Obligations.TerrIsWrittenOnlyByTransportError
  intro s t h hne
  cases step_kind h with
  | blockReset hi => exact .inl ⟨_, hi⟩
  | writeError info hi hp => exact .inr ⟨info, _, .inl ⟨hi, hp⟩, rfl, rfl, rfl⟩
  | readError info hi hp => exact .inr ⟨info, _, .inr ⟨hi, hp⟩, rfl, rfl, rfl⟩
  | tick hi => exact absurd (timerTick_terr _) hne
  | _ => exact absurd rfl hne

/-! OVR (R28) and ADDR (R22). -/

/-- The writers of OVR. -/
theorem ovr_of_step (h : step s = .next t) :
    t.status.ovr = s.status.ovr ∨
    (t.status.ovr = true ∧ s.status.busy = true ∧ ∃ (off : Byte) (v : Word) (rest : List Input),
      s.inputs = .host (.write off 4 v) :: rest ∧ (off = 0x00 ∨ off = 0x08)) ∨
    (t.status.ovr = false ∧ ((∃ rest, s.inputs = .blockReset :: rest) ∨
      ∃ (v : Word) (rest : List Input), s.inputs = .host (.write 0x04 4 v) :: rest ∧ v.getLsbD 7 = true)) := by
  cases step_kind h with
  | writeBusy off v hi ho hb => exact .inr (.inl ⟨rfl, hb, off, v, _, hi, ho⟩)
  | clearOvr v hi hv => exact .inr (.inr ⟨rfl, .inr ⟨v, _, hi, hv⟩⟩)
  | blockReset hi => exact .inr (.inr ⟨rfl, .inl ⟨_, hi⟩⟩)
  | tick hi => exact .inl (timerTick_ovr _)
  | _ => exact .inl rfl

/-- The writers of ADDR. -/
theorem addr_of_step (h : step s = .next t) :
    t.addr = s.addr ∨ (∃ rest, s.inputs = .blockReset :: rest) ∨
    (s.status.busy = false ∧ ∃ (v : Word) (rest : List Input),
      s.inputs = .host (.write 0x08 4 v) :: rest ∧ t.addr = v.extractLsb' 0 8) := by
  cases step_kind h with
  | setAddr v hi hb => exact .inr (.inr ⟨hb, v, _, hi, rfl⟩)
  | blockReset hi => exact .inr (.inl ⟨_, hi⟩)
  | tick hi => exact .inl (timerTick_addr _)
  | _ => exact .inl rfl

/-- Settles O38, by `ovr_of_step` and `addr_of_step`. -/
theorem ovrAndAddrChangeOnlyByTheirWrites : Obligations.OvrAndAddrChangeOnlyByTheirWrites := by
  unfold Obligations.OvrAndAddrChangeOnlyByTheirWrites
  intro s t h
  refine ⟨fun hs ht => ?_, fun hs ht => ?_, fun hne => (addr_of_step h).resolve_left hne⟩
  · obtain he | ⟨_, hset⟩ | ⟨he, _⟩ := ovr_of_step h
    · simp [hs, ht] at he
    · exact hset
    · simp [ht] at he
  · obtain he | ⟨he, _⟩ | ⟨_, hcleared⟩ := ovr_of_step h
    · simp [hs, ht] at he
    · simp [ht] at he
    · exact hcleared

/-! BUSY, VALID, ERR and LAST_OP (R45, R29). -/

/-- What one step can do to BUSY, VALID, ERR and LAST_OP, with the event that did it. -/
inductive FlagEvent (s t : State) : Prop where
  /-- None of the four changes. -/
  | none (hbusy : t.status.busy = s.status.busy) (hvalid : t.status.valid = s.status.valid)
      (herr : t.status.err = s.status.err) (hop : t.status.lastOp = s.status.lastOp)
  /-- Block reset. -/
  | reset (hi : ∃ rest, s.inputs = .blockReset :: rest) (hbusy : t.status.busy = false)
      (hvalid : t.status.valid = false)
  /-- An accepted command (R141). -/
  | accepted (w : Word) (hi : ∃ rest, s.inputs = .host (.write 0x00 4 w) :: rest) (hs : s.status.busy = false)
      (hbusy : t.status.busy = true → opField w ∈ [0x1#4, 0x3#4, 0x4#4]) (hvalid : t.status.valid = false)
      (hop : t.status.lastOp = opField w)
  /-- A failing answer to the write (R144, R147). -/
  | writeFailed (info : Word) (hi : ∃ rest, s.inputs = .writeAnswer (.transportError info) :: rest)
      (hp : s.pend = .write) (hbusy : t.status.busy = false) (hvalid : t.status.valid = false)
      (herr : t.status.err = .transportError) (hop : t.status.lastOp = s.status.lastOp)
  /-- A failing answer to the read (R146, R147). -/
  | readFailed (a : ReadAnswer) (hi : ∃ rest, s.inputs = .readAnswer a :: rest) (hp : s.pend = .read)
      (hbusy : t.status.busy = false) (hvalid : t.status.valid = false)
      (herr : t.status.err = .transportError ∨ t.status.err = .checksumError)
      (hop : t.status.lastOp = s.status.lastOp)
  /-- A valid frame as the answer to the read (R146). -/
  | readDone (b : Frame) (hi : ∃ rest, s.inputs = .readAnswer (.ok b) :: rest) (hp : s.pend = .read)
      (hv : frameValid b = true) (hbusy : t.status.busy = false) (hvalid : t.status.valid = true)
      (herr : t.status.err = s.status.err) (hop : t.status.lastOp = s.status.lastOp)
  /-- The timer expiry that ends a RESET (R145). -/
  | resetDone (hi : ∃ rest, s.inputs = .tick :: rest) (hp : s.status.phase = .wait) (ht : s.timer ≤ 1)
      (ho : s.cur.op = .reset) (hbusy : t.status.busy = false) (hvalid : t.status.valid = s.status.valid)
      (herr : t.status.err = s.status.err) (hop : t.status.lastOp = s.status.lastOp)

theorem flagEvent_of_tick {rest : List Input} (hi : s.inputs = .tick :: rest) :
    FlagEvent s (timerTick (s.withInputs rest)) := by
  obtain ⟨_, he⟩ | ⟨_, _, he⟩ | ⟨hp, ht, ho, he⟩ | ⟨_, _, _, he⟩ := timerTick_cases (s.withInputs rest) <;>
    rw [he]
  · exact .none rfl rfl rfl rfl
  · exact .none rfl rfl rfl rfl
  · exact .resetDone ⟨rest, hi⟩ hp ht ho rfl rfl rfl rfl
  · exact .none rfl rfl rfl rfl

theorem flagEvent_of_step (h : step s = .next t) : FlagEvent s t := by
  cases step_kind h with
  | acceptReset w hi hb ho => exact .accepted w ⟨_, hi⟩ hb (fun _ => by simp [ho]) rfl ho.symm
  | acceptReadSerial w hi hb ho => exact .accepted w ⟨_, hi⟩ hb (fun _ => by simp [ho]) rfl ho.symm
  | acceptReadMeasurement w hi hb ho => exact .accepted w ⟨_, hi⟩ hb (fun _ => by simp [ho]) rfl ho.symm
  | setMode w m hi hb ho hm => exact .accepted w ⟨_, hi⟩ hb (fun ht => by simp [hb] at ht) rfl ho.symm
  | setModeInvalid w hi hb ho hm => exact .accepted w ⟨_, hi⟩ hb nofun rfl ho.symm
  | illegal w hi hb ho => exact .accepted w ⟨_, hi⟩ hb nofun rfl rfl
  | writeError info hi hp => exact .writeFailed info ⟨_, hi⟩ hp rfl rfl rfl rfl
  | readError info hi hp => exact .readFailed _ ⟨_, hi⟩ hp rfl rfl (.inl rfl) rfl
  | readCorrupt b hi hp hv => exact .readFailed _ ⟨_, hi⟩ hp rfl rfl (.inr rfl) rfl
  | readSerial b hi hp hv ho => exact .readDone b ⟨_, hi⟩ hp hv rfl rfl rfl rfl
  | readMeasurement b hi hp hv ho => exact .readDone b ⟨_, hi⟩ hp hv rfl rfl rfl rfl
  | tick hi => exact flagEvent_of_tick hi
  | blockReset hi => exact .reset ⟨_, hi⟩ rfl rfl
  | _ => exact .none rfl rfl rfl rfl

/-- While a request is outstanding an operation is in progress, and it has no value yet (R41, R25, R26). -/
theorem State.Inv.valid_of_pend (hinv : s.Inv) (hp : s.pend ≠ .none) : s.status.valid = false := by
  have hphase : s.status.phase ≠ .idle := by
    intro hidle
    exact hp (by rw [hinv.pend_phase, hidle]; rfl)
  exact (hinv.busy_outcome (hinv.busy_phase.mpr hphase)).1

namespace FlagEvent

theorem valid_rises (e : FlagEvent s t) (hs : s.status.valid = false) (ht : t.status.valid = true) :
    ∃ (b : Frame) (rest : List Input), s.inputs = .readAnswer (.ok b) :: rest ∧ s.pend = .read ∧
      frameValid b = true := by
  cases e with
  | readDone b hi hp hv =>
    obtain ⟨rest, hi⟩ := hi
    exact ⟨b, rest, hi, hp, hv⟩
  | _ => simp_all

theorem valid_falls (e : FlagEvent s t) (hinv : s.Inv) (hs : s.status.valid = true) (ht : t.status.valid = false) :
    (s.status.busy = false ∧ ∃ (w : Word) (rest : List Input), s.inputs = .host (.write 0x00 4 w) :: rest) ∨
      ∃ rest, s.inputs = .blockReset :: rest := by
  cases e with
  | accepted w hi hb => exact .inl ⟨hb, w, hi⟩
  | reset hi => exact .inr hi
  | writeFailed info hi hp => simp [hinv.valid_of_pend, hp] at hs
  | readFailed a hi hp => simp [hinv.valid_of_pend, hp] at hs
  | _ => simp_all

theorem err_changes (e : FlagEvent s t) (hne : t.status.err ≠ s.status.err) :
    (s.status.busy = false ∧ ∃ (w : Word) (rest : List Input), s.inputs = .host (.write 0x00 4 w) :: rest) ∨
      (∃ rest, s.inputs = .blockReset :: rest) ∨
      (s.pend ≠ .none ∧ t.status.busy = false ∧ t.status.valid = false ∧
        (t.status.err = .transportError ∨ t.status.err = .checksumError)) := by
  cases e with
  | accepted w hi hb => exact .inl ⟨hb, w, hi⟩
  | reset hi => exact .inr (.inl hi)
  | writeFailed info hi hp hbusy hvalid herr => exact .inr (.inr ⟨by simp [hp], hbusy, hvalid, .inl herr⟩)
  | readFailed a hi hp hbusy hvalid herr => exact .inr (.inr ⟨by simp [hp], hbusy, hvalid, herr⟩)
  | none _ _ herr => exact absurd herr hne
  | readDone _ _ _ _ _ _ herr => exact absurd herr hne
  | resetDone _ _ _ _ _ _ herr => exact absurd herr hne

theorem lastOp_changes (e : FlagEvent s t) (hne : t.status.lastOp ≠ s.status.lastOp) :
    (∃ rest, s.inputs = .blockReset :: rest) ∨
      (s.status.busy = false ∧ ∃ (w : Word) (rest : List Input),
        s.inputs = .host (.write 0x00 4 w) :: rest ∧ t.status.lastOp = opField w) := by
  cases e with
  | accepted w hi hb _ _ hop =>
    obtain ⟨rest, hi⟩ := hi
    exact .inr ⟨hb, w, rest, hi, hop⟩
  | reset hi => exact .inl hi
  | _ => exact absurd (by assumption) hne

theorem busy_rises (e : FlagEvent s t) (hs : s.status.busy = false) (ht : t.status.busy = true) :
    ∃ (w : Word) (rest : List Input), s.inputs = .host (.write 0x00 4 w) :: rest ∧
      opField w ∈ [0x1#4, 0x3#4, 0x4#4] := by
  cases e with
  | accepted w hi _ hbusy =>
    obtain ⟨rest, hi⟩ := hi
    exact ⟨w, rest, hi, hbusy ht⟩
  | _ => simp_all

theorem busy_falls (e : FlagEvent s t) (hinv : s.Inv) (hs : s.status.busy = true) (ht : t.status.busy = false) :
    (∃ rest, s.inputs = .blockReset :: rest) ∨
      (s.pend = .write ∧ ∃ (info : Word) (rest : List Input),
        s.inputs = .writeAnswer (.transportError info) :: rest) ∨
      (s.pend = .read ∧ ∃ (a : ReadAnswer) (rest : List Input), s.inputs = .readAnswer a :: rest) ∨
      (s.status.phase = .wait ∧ s.timer = 1 ∧ s.cur.op = .reset ∧ ∃ rest, s.inputs = .tick :: rest) := by
  cases e with
  | none hbusy => simp_all
  | accepted _ _ hb => simp_all
  | reset hi => exact .inl hi
  | writeFailed info hi hp => exact .inr (.inl ⟨hp, info, hi⟩)
  | readFailed a hi hp => exact .inr (.inr (.inl ⟨hp, a, hi⟩))
  | readDone b hi hp => exact .inr (.inr (.inl ⟨hp, _, hi⟩))
  | resetDone hi hp htimer ho =>
    have hpos := (hinv.wait_timer hp).1
    exact .inr (.inr (.inr ⟨hp, by omega, ho, hi⟩))

end FlagEvent

/-- Settles O39: each flag's changes by the events of `FlagEvent`; the invariant excludes that VALID falls with a
failing answer, and gives the expiry its timer of 1. -/
theorem flagsChangeOnlyAsTabled : Obligations.FlagsChangeOnlyAsTabled := by
  unfold Obligations.FlagsChangeOnlyAsTabled
  intro s t hinv h accepted resets
  have e := flagEvent_of_step h
  exact ⟨e.valid_rises, e.valid_falls hinv, e.err_changes, e.lastOp_changes, e.busy_rises, e.busy_falls hinv⟩

end Sys2Proof.Machine
end

section
/-! Noninterference (R43): while no operation is in progress, nothing shows the latches, TIMER or RXBUF. -/

namespace Sys2Proof.Machine

variable {s s' t : State}

/-- `s'` is `s` but for TIMER, RXBUF and, while no operation is in progress, the latches. -/
def AgreesUpToLatches (s s' : State) : Prop :=
  ∃ (c : Latches) (n : Nat) (b : Frame), s' = { s with cur := c, timer := n, rxbuf := b } ∧
    (s.status.busy = true → c = s.cur)

/-- An update of the state that carries the agreement over. -/
def KeepsAgreement (f : State → State) : Prop :=
  ∀ s s' : State, AgreesUpToLatches s s' → AgreesUpToLatches (f s) (f s')

/-! The state's operations carry the agreement over, whatever the state. -/

namespace KeepsAgreement

theorem unchanged : KeepsAgreement id := fun _ _ h => h

theorem comp {f g : State → State} (hf : KeepsAgreement f) (hg : KeepsAgreement g) :
    KeepsAgreement fun s => f (g s) :=
  fun _ _ h => hf _ _ (hg _ _ h)

/-- An update that neither reads nor writes what the agreement leaves open, and starts no operation. -/
theorem of_frame {f : State → State}
    (hf : ∀ s c n b, f { s with cur := c, timer := n, rxbuf := b } = { f s with cur := c, timer := n, rxbuf := b })
    (hcur : ∀ s, (f s).cur = s.cur) (hbusy : ∀ s, (f s).status.busy = true → s.status.busy = true) :
    KeepsAgreement f := by
  rintro s _ ⟨c, n, b, rfl, hc⟩
  exact ⟨c, n, b, hf s c n b, fun h => (hc (hbusy s h)).trans (hcur s).symm⟩

theorem withInputs (inputs : List Input) : KeepsAgreement (·.withInputs inputs) :=
  of_frame (fun _ _ _ _ => rfl) (fun _ => rfl) fun _ h => h

theorem accept (op : BitVec 4) : KeepsAgreement (accept op) :=
  of_frame (fun _ _ _ _ => rfl) (fun _ => rfl) fun _ h => h

theorem overrun : KeepsAgreement overrun :=
  of_frame (fun _ _ _ _ => rfl) (fun _ => rfl) fun _ h => h

theorem clearOverrun : KeepsAgreement clearOverrun :=
  of_frame (fun _ _ _ _ => rfl) (fun _ => rfl) fun _ h => h

theorem setAddr (a : Byte) : KeepsAgreement (setAddr a) :=
  of_frame (fun _ _ _ _ => rfl) (fun _ => rfl) fun _ h => h

theorem storeMode (m : Mode) : KeepsAgreement fun s => { s with mode := m } :=
  of_frame (fun _ _ _ _ => rfl) (fun _ => rfl) fun _ h => h

theorem hostRead (off : Byte) (width : Nat) : KeepsAgreement (hostRead off width) :=
  of_frame (fun _ _ _ _ => rfl) (fun _ => rfl) fun _ h => h

theorem raiseError (e : OpError) : KeepsAgreement (raiseError e) :=
  of_frame (fun _ _ _ _ => rfl) (fun _ => rfl) fun _ h => by simp at h

/-- Block reset gives the latches, TIMER and RXBUF the same values in both states. -/
theorem blockReset : KeepsAgreement blockReset := by
  rintro s _ ⟨c, n, b, rfl, _⟩
  exact ⟨_, _, _, rfl, nofun⟩

/-- The start of an operation writes the latches, whatever they held. -/
theorem start (op : BusOp) (cmd : Byte) (us : Word) : KeepsAgreement (start op cmd us) := by
  rintro s _ ⟨c, n, b, rfl, _⟩
  exact ⟨_, n, b, rfl, fun _ => rfl⟩

/-- BUSY, which decides, is the same in both states. -/
theorem whileIdle {f : State → State} (hf : KeepsAgreement f) : KeepsAgreement (whileIdle f) := by
  intro s s' h
  have hbusy : s'.status.busy = s.status.busy := by
    obtain ⟨c, n, b, rfl, _⟩ := h
    rfl
  cases hb : s.status.busy with
  | true =>
    rw [whileIdle_busy hb, whileIdle_busy (hbusy.trans hb)]
    exact overrun s s' h
  | false =>
    rw [whileIdle_idle hb, whileIdle_idle (hbusy.trans hb)]
    exact hf s s' h

theorem setMode (code : Byte) : KeepsAgreement (setMode code) := by
  cases hm : lookupMode code with
  | some m =>
    have he : Machine.setMode code = fun s => { Machine.accept 0x2 s with mode := m } :=
      funext fun _ => setMode_valid hm
    rw [he]
    exact (storeMode m).comp (accept 0x2)
  | none =>
    have he : Machine.setMode code = fun s => Machine.raiseError .invalidArgument (Machine.accept 0x2 s) :=
      funext fun _ => setMode_invalid hm
    rw [he]
    exact (raiseError .invalidArgument).comp (accept 0x2)

/-- READ_MEASUREMENT latches the mode, which is the same in both states. -/
theorem startMeasurement :
    KeepsAgreement fun s =>
      Machine.start .readMeasurement s.mode.code (modeDelayUs s.mode.code) (Machine.accept 0x4 s) := by
  rintro s _ ⟨c, n, b, rfl, _⟩
  exact ⟨_, n, b, rfl, fun _ => rfl⟩

theorem illegalCommand (op : BitVec 4) : KeepsAgreement (illegalCommand op) :=
  whileIdle ((raiseError .illegalCommand).comp (accept op))

end KeepsAgreement

theorem busFrame_not_outstanding (b : Byte) (h : s.pend ≠ .write) : busFrame b s = s := by
  simp [busFrame, frameOutstanding, h]

/-- With no `BusWrite` outstanding, every instruction is an update that carries the agreement over. -/
theorem exec_keeps_agreement (i : Instr) :
    ∃ f, KeepsAgreement f ∧ ∀ s : State, s.pend ≠ .write → exec i s = .next (f s) := by
  cases i with
  | reset => exact ⟨_, .whileIdle ((KeepsAgreement.start _ _ _).comp (.accept _)), fun _ _ => rfl⟩
  | setMode code => exact ⟨_, .whileIdle (.setMode code), fun _ _ => rfl⟩
  | readSerial => exact ⟨_, .whileIdle ((KeepsAgreement.start _ _ _).comp (.accept _)), fun _ _ => rfl⟩
  | readMeasurement => exact ⟨_, .whileIdle .startMeasurement, fun _ _ => rfl⟩
  | illegal0 | illegal5 | illegal6 | illegal7 | illegal8 | illegal9 | illegalA | illegalB | illegalC | illegalD
  | illegalE | illegalF => exact ⟨_, .illegalCommand _, fun _ _ => rfl⟩
  | getMode => exact ⟨_, (KeepsAgreement.hostRead _ _).comp (.hostRead _ _), fun _ _ => rfl⟩
  | setAddr a => exact ⟨_, .whileIdle (.setAddr a), fun _ _ => rfl⟩
  | clearOvr w1c =>
    cases w1c with
    | true => exact ⟨_, .clearOverrun, fun _ _ => rfl⟩
    | false => exact ⟨_, .unchanged, fun _ _ => rfl⟩
  | busReset | busReadSerial | busMeasureFD | busMeasureF6 | busMeasureE0 | busMeasure39 | busMeasure32
  | busMeasure2F | busMeasure24 | busMeasure1E | busMeasure15 =>
    exact ⟨_, .unchanged, fun _ hp => congrArg Host.Outcome.next (busFrame_not_outstanding _ hp)⟩

/-- With no request outstanding and PHASE = IDLE, what an input does without an instruction carries the agreement over
too. -/
theorem takeInput_keeps_agreement (inp : Input) :
    ∃ f, KeepsAgreement f ∧
      ∀ s : State, s.pend = .none → s.status.phase = .idle → takeInput inp s = .next (f s) := by
  cases inp with
  | host a =>
    cases a with
    | read off width => exact ⟨_, .hostRead off width, fun _ _ _ => rfl⟩
    | write off width v => exact ⟨_, .unchanged, fun _ _ _ => rfl⟩
  | writeAnswer a => exact ⟨_, .unchanged, fun s hp _ => by simp [takeInput, hp]⟩
  | readAnswer a => exact ⟨_, .unchanged, fun s hp _ => by simp [takeInput, hp]⟩
  | tick => exact ⟨_, .unchanged, fun s _ hi => congrArg Host.Outcome.next (timerTick_outside (by simp [hi]))⟩
  | blockReset => exact ⟨_, .blockReset, fun _ _ _ => rfl⟩

/-! The step. -/

/-- What the decoder sees shows a latch only while a `BusWrite` is outstanding. -/
theorem transfers_eq_of_agrees (h : AgreesUpToLatches s s') (hp : s.pend = .none) : s'.transfers = s.transfers := by
  obtain ⟨c, n, b, rfl, _⟩ := h
  simp [State.transfers, hp]

theorem step_of_decode_error {e : Reject} (h : decode s.transfers = .error e) : step s = otherStep s := by
  simp only [step, fetch, h]

/-- Two states that agree up to the latches, with no operation in progress, step to two that agree so again. -/
theorem step_keeps_agreement (h : AgreesUpToLatches s s') (hphase : s.status.phase = .idle) (hp : s.pend = .none)
    (hs : step s = .next t) : ∃ t', step s' = .next t' ∧ AgreesUpToLatches t t' := by
  have htransfers := transfers_eq_of_agrees h hp
  obtain ⟨hphase', hp', hinputs⟩ : s'.status.phase = .idle ∧ s'.pend = .none ∧ s'.inputs = s.inputs := by
    obtain ⟨c, n, b, rfl, _⟩ := h
    exact ⟨hphase, hp, rfl⟩
  cases hd : decode s.transfers with
  | ok i =>
    obtain ⟨f, hf, hexec⟩ := exec_keeps_agreement i
    rw [step_of_decode hd, hexec _ (by simp [hp])] at hs
    cases hs
    rw [step_of_decode (htransfers ▸ hd), hexec _ (by simp [hp']), hinputs]
    exact ⟨_, rfl, hf _ _ (KeepsAgreement.withInputs _ _ _ h)⟩
  | error e =>
    rw [step_of_decode_error hd, otherStep] at hs
    rw [step_of_decode_error (htransfers ▸ hd), otherStep, hinputs]
    cases hi : s.inputs with
    | nil =>
      rw [hi] at hs
      cases hs
      exact ⟨_, rfl, h⟩
    | cons inp rest =>
      obtain ⟨f, hf, htake⟩ := takeInput_keeps_agreement inp
      simp only [hi, htake (s.withInputs rest) hp hphase] at hs
      cases hs
      exact ⟨_, htake (s'.withInputs rest) hp' hphase', hf _ _ (KeepsAgreement.withInputs _ _ _ h)⟩

/-- Settles O3: agreement up to the latches is kept by the step (`step_keeps_agreement`). -/
theorem idleEngineIgnoresTheUnspecifiedLatches : Obligations.IdleEngineIgnoresTheUnspecifiedLatches := by
  unfold Obligations.IdleEngineIgnoresTheUnspecifiedLatches
  intro s t c n b hbusy hphase hp hs
  have hagree : AgreesUpToLatches s { s with cur := c, timer := n, rxbuf := b } :=
    ⟨c, n, b, rfl, fun h => absurd (hbusy.symm.trans h) nofun⟩
  obtain ⟨t', ht', c', n', b', rfl, hc'⟩ := step_keeps_agreement hagree hphase hp hs
  exact ⟨_, ht', rfl, rfl, rfl, rfl, rfl, rfl, rfl, rfl, rfl, hc'⟩

end Sys2Proof.Machine
end

section
/-! The register window (20_memory.md): where it sits (R50), the writes it ignores (R52 to R54), and the byte order of
what a frame brings (R57). -/

namespace Sys2Proof.Machine

/-! The window at `REG_BASE` (R50). -/

theorem windowOffset_regBase_add {off : Nat} (h : off < 0x100) :
    windowOffset (Config.regBase + off) = some (BitVec.ofNat 8 off) := by
  have hmem : Config.regBase ≤ Config.regBase + off ∧
      Config.regBase + off < Config.regBase + Config.regWindow :=
    ⟨Nat.le_add_right _ _, Nat.add_lt_add_left h _⟩
  rw [windowOffset, if_pos hmem, Nat.add_sub_cancel_left]

theorem windowOffset_outside {addr : Nat} (h : addr < Config.regBase ∨ Config.regBase + 0x100 ≤ addr) :
    windowOffset addr = none := by
  refine if_neg fun ⟨hlo, hhi⟩ => ?_
  rw [Config.regWindow] at hhi
  omega

/-- Settles O13: `windowOffset` decides what an access reaches, inside the window and outside it. -/
theorem windowSitsAtRegBase : Obligations.WindowSitsAtRegBase := by
  unfold Obligations.WindowSitsAtRegBase
  constructor
  · intro off width v h
    simp [memWrite, memRead, windowOffset_regBase_add h]
  · intro addr width v h
    simp [memWrite, memRead, windowOffset_outside h]

/-! The writes that the window ignores. -/

/-- CMD, STATUS and ADDR sit at aligned, mapped offsets and are not read-only as a whole (R21). -/
theorem not_writable_of_ignored {off : Byte}
    (h : off.toNat % 4 ≠ 0 ∨ off ∈ [0x0C, 0x10, 0x14, 0x18, 0x1C, 0x20, 0x24, 0x28, 0x2C] ∨ 0x30#8 ≤ off) :
    off ≠ 0x00 ∧ off ≠ 0x04 ∧ off ≠ 0x08 := by
  refine ⟨?_, ?_, ?_⟩ <;>
  · rintro rfl
    exact absurd h (by decide)

/-- Settles O12: a word write that is to be ignored is none of CMD, STATUS or ADDR. -/
theorem ignoredHostWritesChangeNothing : Obligations.IgnoredHostWritesChangeNothing := by
  unfold Obligations.IgnoredHostWritesChangeNothing
  intro s off width v rest hi hcase
  exact step_write_ignored hi fun hw => not_writable_of_ignored (hcase.resolve_left (not_not_intro hw))

/-! The byte order of the fields of a frame (R57). -/

/-- A concatenation holds its first part above its second, as unsigned numbers. -/
theorem toNat_append_eq_mul_add {m n : Nat} (x : BitVec m) (y : BitVec n) :
    (x ++ y).toNat = x.toNat * 2 ^ n + y.toNat := by
  rw [BitVec.toNat_append, ← Nat.shiftLeft_add_eq_or_of_lt y.isLt, Nat.shiftLeft_eq]

theorem field0_toNat (b : Frame) : (field0 b).toNat = b.b0.toNat * 256 + b.b1.toNat :=
  toNat_append_eq_mul_add b.b0 b.b1

theorem field1_toNat (b : Frame) : (field1 b).toNat = b.b3.toNat * 256 + b.b4.toNat :=
  toNat_append_eq_mul_add b.b3 b.b4

theorem serialOf_toNat (b : Frame) : (serialOf b).toNat = (field0 b).toNat * 65536 + (field1 b).toNat :=
  toNat_append_eq_mul_add (field0 b) (field1 b)

/-- Settles O46: each concatenation weighs its high part, the fields by 2^8 and the serial number by 2^16. -/
theorem fieldsAndSerialAreBigEndian : Obligations.FieldsAndSerialAreBigEndian := by
  unfold Obligations.FieldsAndSerialAreBigEndian
  intro b
  refine ⟨field0_toNat b, field1_toNat b, ?_⟩
  rw [serialOf_toNat, field0_toNat, field1_toNat]
  ring

end Sys2Proof.Machine
end

section
/-! The requests on the transport port (R58, R61): when one is issued, and which. -/

namespace Sys2Proof.Machine

variable {s t : State}

/-- A request can be issued only by an expiring tick: the read of any operation but RESET (R145, R191). -/
theorem timerTick_issued (s : State) :
    (timerTick s).issued = s.issued ∨
    (s.status.phase = .wait ∧ s.timer ≤ 1 ∧ s.cur.op ≠ .reset ∧
      (timerTick s).issued = .busRead s.cur.addr 6 :: s.issued) := by
  obtain ⟨_, he⟩ | ⟨_, _, he⟩ | ⟨_, _, _, he⟩ | ⟨hp, ht, ho, he⟩ := timerTick_cases s <;> rw [he]
  · exact .inl rfl
  · exact .inl rfl
  · exact .inl rfl
  · exact .inr ⟨hp, ht, ho, rfl⟩

/-- The two issuers of a request: an accepted bus command and the expiry of the settle timer. -/
theorem issued_of_step (h : step s = .next t) :
    t.issued = s.issued ∨
    (s.status.busy = false ∧ ∃ (w : Word) (rest : List Input) (b : Byte),
      s.inputs = .host (.write 0x00 4 w) :: rest ∧ (b = 0x94 ∨ b = 0x89 ∨ b = s.mode.code) ∧
      t.issued = .busWrite s.addr b :: s.issued) ∨
    (s.status.phase = .wait ∧ ∃ rest : List Input, s.inputs = .tick :: rest ∧ s.timer ≤ 1 ∧
      s.cur.op ≠ .reset ∧ t.issued = .busRead s.cur.addr 6 :: s.issued) := by
  cases step_kind h with
  | acceptReset w hi hb ho => exact .inr (.inl ⟨hb, w, _, _, hi, .inl rfl, rfl⟩)
  | acceptReadSerial w hi hb ho => exact .inr (.inl ⟨hb, w, _, _, hi, .inr (.inl rfl), rfl⟩)
  | acceptReadMeasurement w hi hb ho => exact .inr (.inl ⟨hb, w, _, _, hi, .inr (.inr rfl), rfl⟩)
  | tick hi =>
    obtain he | ⟨hp, ht, ho, he⟩ := timerTick_issued (s.withInputs _)
    · exact .inl he
    · exact .inr (.inr ⟨hp, _, hi, ht, ho, he⟩)
  | _ => exact .inl rfl

/-- The mode codes are command frames (R71, R100). -/
theorem code_mem_commandFrameBytes {m : Mode} (h : m ∈ modeTable) : m.code ∈ commandFrameBytes := by
  revert m
  decide

/-- No request is outstanding while no operation is in progress (R25, R41). -/
theorem State.Inv.pend_of_not_busy (hinv : s.Inv) (hb : s.status.busy = false) : s.pend = .none := by
  have hidle : s.status.phase = .idle := by
    by_contra hp
    exact absurd (hinv.busy_phase.mpr hp) (by simp [hb])
  rw [hinv.pend_phase, hidle, Phase.pend]

/-- No request is outstanding during the settle delay (R41). -/
theorem State.Inv.pend_of_wait (hinv : s.Inv) (hp : s.status.phase = .wait) : s.pend = .none := by
  rw [hinv.pend_phase, hp, Phase.pend]

/-- Settles O33: the invariant makes every byte of `issued_of_step` a command frame, gives the expiry its timer of 1,
and leaves nothing outstanding in either case. -/
theorem requestsAreIssuedInOrder : Obligations.RequestsAreIssuedInOrder := by
  unfold Obligations.RequestsAreIssuedInOrder
  intro s t hinv h hne
  obtain ⟨hb, w, rest, b, hi, hbyte, he⟩ | ⟨hp, rest, hi, ht, ho, he⟩ := (issued_of_step h).resolve_left hne
  · have hmem : b ∈ commandFrameBytes := by
      obtain rfl | rfl | rfl := hbyte
      · decide
      · decide
      · exact code_mem_commandFrameBytes hinv.mode_in_table
    exact ⟨hinv.pend_of_not_busy hb, .inl ⟨w, rest, b, hi, hb, hmem, he⟩⟩
  · have htimer : s.timer = 1 := le_antisymm ht (hinv.wait_timer hp).1
    exact ⟨hinv.pend_of_wait hp, .inr ⟨rest, hi, hp, htimer, ho, he⟩⟩

end Sys2Proof.Machine
end

section
/-! The encodings (30_encoding.md): the decoder of command words sees two fields (R73, R75, R76), the decoder of
frames is a table (R71), and the encoder inverts both. -/

namespace Sys2Proof.Machine

/-! The two fields of a command word (R73). -/

theorem opField_commandWord (op : BitVec 4) (arg : Byte) : opField (commandWord op arg) = op :=
  BitVec.extractLsb'_append_eq_right

theorem argField_commandWord (op : BitVec 4) (arg : Byte) : argField (commandWord op arg) = arg := by
  rw [argField, commandWord]
  iterate 2 rw [BitVec.extractLsb'_append_eq_of_le (by decide)]
  exact BitVec.extractLsb'_append_eq_right

/-- A command word is reserved bits [31:16], ARG, reserved bits [7:4] and OP. -/
theorem fields_append (w : Word) :
    w.extractLsb' 16 16 ++ argField w ++ w.extractLsb' 4 4 ++ opField w = w := by
  have hlow : w.extractLsb' 16 16 ++ argField w = w.extractLsb' 8 24 :=
    BitVec.extractLsb'_append_extractLsb'_eq_extractLsb' rfl
  have hmid : w.extractLsb' 8 24 ++ w.extractLsb' 4 4 = w.extractLsb' 4 28 :=
    BitVec.extractLsb'_append_extractLsb'_eq_extractLsb' rfl
  rw [hlow, hmid]
  exact BitVec.extractLsb'_append_extractLsb'

/-- A mask of whole fields keeps OP and, of ARG, the bits in `arg`. -/
theorem and_fields (w : Word) (arg : Byte) :
    w &&& commandWord 0xF arg = commandWord (opField w) (argField w &&& arg) := by
  have hop : opField w &&& 0xF#4 = opField w := BitVec.and_allOnes
  calc w &&& commandWord 0xF arg
      = (w.extractLsb' 16 16 ++ argField w ++ w.extractLsb' 4 4 ++ opField w) &&& (0#16 ++ arg ++ 0#4 ++ 0xF#4) :=
        congrArg (· &&& commandWord 0xF arg) (fields_append w).symm
    _ = commandWord (opField w) (argField w &&& arg) := by
        simp only [BitVec.and_append, BitVec.and_zero, hop, commandWord]

/-- The command word of the fields of `w` is `w` with its reserved bits zero. -/
theorem commandWord_op_arg (w : Word) : commandWord (opField w) (argField w) = w &&& 0x0000FF0F := by
  have harg : argField w &&& 0xFF = argField w := BitVec.and_allOnes
  exact (harg ▸ and_fields w 0xFF).symm

theorem commandWord_op_zero (w : Word) : commandWord (opField w) 0 = w &&& 0x0000000F := by
  have harg : argField w &&& 0 = 0 := BitVec.and_zero
  exact (harg ▸ and_fields w 0).symm

/-! The decoding of a command word (R75, R76). -/

/-- The decoder reads OP and, under SET_MODE alone, ARG. -/
theorem decodeCommand_congr {w w' : Word} (hop : opField w = opField w')
    (harg : opField w = 0x2 → argField w = argField w') : decodeCommand w = decodeCommand w' := by
  by_cases h : opField w = 0x2
  · simp only [decodeCommand, ← hop, harg h]
  · have hne : (opField w).toNat ≠ 0x2 := fun hn => h (BitVec.eq_of_toNat_eq hn)
    simp only [decodeCommand, ← hop]
    split
    case h_2 hn => exact absurd hn hne
    all_goals rfl

theorem decodeCommand_of_op_ne {w : Word} (h : opField w ≠ 0x2) :
    decodeCommand w = decodeCommand (commandWord (opField w) 0) :=
  decodeCommand_congr (opField_commandWord _ _).symm fun h2 => absurd h2 h

theorem decodeCommand_setMode {w : Word} (h : opField w = 0x2) : decodeCommand w = .setMode (argField w) := by
  simp [decodeCommand, h]

/-- Every OP but 1 to 4 is reserved, and decodes to its own illegal instruction (R77). -/
theorem decodeCommand_reserved {w : Word} (h : opField w ∉ [0x1#4, 0x2#4, 0x3#4, 0x4#4]) :
    (decodeCommand w, opField w) ∈ illegalInstrs := by
  have hall : ∀ op : BitVec 4, op ∉ [0x1#4, 0x2#4, 0x3#4, 0x4#4] →
      (decodeCommand (commandWord op 0), op) ∈ illegalInstrs := by decide
  have hne : opField w ≠ 0x2 := fun h2 => h (by simp [h2])
  rw [decodeCommand_of_op_ne hne]
  exact hall _ h

/-- Settles O6: the decoding is a function of the two fields, and the masked word has the same two. -/
theorem decodeDependsOnlyOnOpAndSetModeArg : Obligations.DecodeDependsOnlyOnOpAndSetModeArg := by
  unfold Obligations.DecodeDependsOnlyOnOpAndSetModeArg
  refine ⟨fun w w' hop harg => decodeCommand_congr hop harg, fun w => ?_⟩
  rw [← commandWord_op_arg]
  exact decodeCommand_congr (opField_commandWord _ _).symm fun _ => (argField_commandWord _ _).symm

/-- Settles O7: one case for each OP of R75, the reserved ones by `decodeCommand_reserved`. -/
theorem decodeOfEveryCommandWord : Obligations.DecodeOfEveryCommandWord := by
  unfold Obligations.DecodeOfEveryCommandWord
  refine ⟨fun w => ⟨fun h => ?_, decodeCommand_setMode, fun h => ?_, fun h => ?_, decodeCommand_reserved⟩,
    fun w w' hop hne => decodeCommand_congr hop fun h2 => absurd h2 hne⟩
  all_goals
    change opField w = _ at h
    simp [decodeCommand, h]

/-! The bus command frames (R71). -/

theorem encode_frameInstrs : ∀ p ∈ frameInstrs, encode p.1 = [.frame p.2.1] := by decide

/-- The decoder of frames is the table of the 11 command frames. -/
theorem decodeFrame_eq_some_iff {b : Byte} {i : Instr} :
    decodeFrame b = some i ↔ ∃ us, (i, b, us) ∈ frameInstrs := by
  constructor
  · intro h
    have hb : b = BitVec.ofNat 8 b.toNat := by simp
    unfold decodeFrame at h
    split at h <;> cases h
    all_goals
      next hn =>
        rw [hb, hn]
        simp [frameInstrs]
  · rintro ⟨us, hp⟩
    have htable : ∀ p ∈ frameInstrs, decodeFrame p.2.1 = some p.1 := by decide
    exact htable _ hp

/-- Settles O9: the decoder of frames is the table (`decodeFrame_eq_some_iff`), whose bytes are the 11. -/
theorem commandFramesAreTheElevenBytes : Obligations.CommandFramesAreTheElevenBytes := by
  unfold Obligations.CommandFramesAreTheElevenBytes
  refine ⟨rfl, by decide, rfl, fun p hp => decodeFrame_eq_some_iff.mpr ⟨p.2.2, hp⟩, fun b hb => ?_⟩
  refine Option.eq_none_iff_forall_ne_some.mpr fun i hi => hb ?_
  obtain ⟨us, hp⟩ := decodeFrame_eq_some_iff.mp hi
  exact List.mem_map_of_mem (f := fun p => p.2.1) hp

/-! What a list of transfers decodes to, by its first. -/

theorem decode_frame {b : Byte} {i : Instr} (h : decodeFrame b = some i) (rest : List Transfer) :
    decode (.frame b :: rest) = .ok i := by
  simp only [decode, h]

theorem decode_write_cmd (w : Word) (rest : List Transfer) :
    decode (.host (.write 0x00 4 w) :: rest) = .ok (decodeCommand w) := rfl

theorem decode_write_status (v : Word) (rest : List Transfer) :
    decode (.host (.write 0x04 4 v) :: rest) = .ok (.clearOvr (v.getLsbD 7)) := rfl

theorem decode_write_addr (v : Word) (rest : List Transfer) :
    decode (.host (.write 0x08 4 v) :: rest) = .ok (.setAddr (v.extractLsb' 0 8)) := rfl

/-- Settles O5: each word written out is decoded by evaluation. -/
theorem sampleWordsDecodeToTheirInstructions : Obligations.SampleWordsDecodeToTheirInstructions := by
  unfold Obligations.SampleWordsDecodeToTheirInstructions
  exact ⟨rfl, rfl, rfl, rfl, rfl, rfl, rfl, rfl, rfl, rfl, rfl, rfl, rfl, rfl⟩

/-! Decoding an encoded instruction. -/

theorem decode_encodeCommand {op : BitVec 4} {arg : Byte} {i : Instr}
    (h : decodeCommand (commandWord op arg) = i) (rest : List Transfer) :
    decode (encodeCommand op arg ++ rest) = .ok i := by
  rw [← h]
  exact decode_write_cmd _ rest

theorem decode_encode (i : Instr) (rest : List Transfer) : decode (encode i ++ rest) = .ok i := by
  cases i with
  | setMode code =>
    have h : decodeCommand (commandWord 0x2 code) = .setMode code := by
      rw [decodeCommand_setMode (opField_commandWord _ _), argField_commandWord]
    exact decode_encodeCommand h rest
  | reset | readSerial | readMeasurement | illegal0 | illegal5 | illegal6 | illegal7 | illegal8 | illegal9 | illegalA
  | illegalB | illegalC | illegalD | illegalE | illegalF => exact decode_encodeCommand rfl rest
  | getMode => rfl
  | setAddr a =>
    have ha : (0#24 ++ a).extractLsb' 0 8 = a := BitVec.extractLsb'_append_eq_right
    exact (decode_write_addr _ rest).trans (by rw [ha])
  | clearOvr w1c =>
    refine (decode_write_status _ rest).trans ?_
    cases w1c <;> rfl
  | busReset | busReadSerial | busMeasureFD | busMeasureF6 | busMeasureE0 | busMeasure39 | busMeasure32
  | busMeasure2F | busMeasure24 | busMeasure1E | busMeasure15 => exact decode_frame rfl rest

/-! Encoding a decoded instruction. -/

/-- What a command word decodes to is encoded with the word's OP and, under SET_MODE alone, its ARG. -/
theorem encode_decodeCommand (w : Word) :
    encode (decodeCommand w) = encodeCommand (opField w) (if opField w = 0x2 then argField w else 0) := by
  by_cases h : opField w = 0x2
  · rw [decodeCommand_setMode h, if_pos h, h]
    rfl
  · have hall : ∀ op : BitVec 4, op ≠ 0x2 →
        encode (decodeCommand (commandWord op 0)) = encodeCommand op 0 := by decide
    rw [decodeCommand_of_op_ne h, if_neg h]
    exact hall _ h

theorem encode_decodeCommand_eq_mask (w : Word) :
    encode (decodeCommand w) =
      [.host (.write 0x00 4 (w &&& if opField w = 0x2 then 0x0000FF0F else 0x0000000F))] := by
  rw [encode_decodeCommand]
  split
  · rw [encodeCommand, commandWord_op_arg]
  · rw [encodeCommand, commandWord_op_zero]

/-- The low byte of a word, by a mask. -/
theorem zero_append_low_byte (v : Word) : 0#24 ++ v.extractLsb' 0 8 = v &&& 0x000000FF :=
  calc 0#24 ++ v.extractLsb' 0 8
      = (v.extractLsb' 8 24 ++ v.extractLsb' 0 8) &&& (0#24 ++ 0xFF#8) := by
        rw [BitVec.and_append, BitVec.and_zero, show 0xFF#8 = BitVec.allOnes 8 from rfl, BitVec.and_allOnes]
    _ = v &&& 0x000000FF := congrArg (· &&& 0x000000FF) BitVec.extractLsb'_append_extractLsb'

/-- Bit 7 of a word, by a mask. -/
theorem zero_append_bit_seven (v : Word) : 0#24 ++ BitVec.ofBool (v.getLsbD 7) ++ 0#7 = v &&& 0x00000080 := by
  have hv : v &&& 0x00000080 = if v.getLsbD 7 then BitVec.twoPow 32 7 else 0#32 := BitVec.and_twoPow v 7
  rw [hv]
  cases v.getLsbD 7 <;> rfl

/-- Settles O8: `decode_encode` for every instruction, and for each kind of transfer that decodes the word that the
encoder writes back. -/
theorem decodeEncodeAgree : Obligations.DecodeEncodeAgree := by
  unfold Obligations.DecodeEncodeAgree
  refine ⟨decode_encode, encode_decodeCommand_eq_mask, fun v i h => ?_, fun v i h => ?_, fun b i h => ?_⟩
  · rw [decode_write_addr] at h
    cases h
    rw [encode, zero_append_low_byte]
  · rw [decode_write_status] at h
    cases h
    rw [encode, zero_append_bit_seven]
  · obtain ⟨us, hp⟩ := decodeFrame_eq_some_iff.mp h
    exact encode_frameInstrs _ hp

end Sys2Proof.Machine
end

section
/-! The reserved OPs (R77). -/

namespace Sys2Proof.Machine

/-- Every reserved OP has the one meaning `illegalCommand`. -/
theorem exec_illegalInstrs {p : Instr × BitVec 4} (hp : p ∈ illegalInstrs) (s : State) :
    exec p.1 s = .next (illegalCommand p.2 s) := by
  fin_cases hp <;> rfl

/-- An error at acceptance by an idle engine writes LAST_OP, VALID and ERR, and the TERR of its kind. -/
theorem raiseError_accept_idle {s : State} (e : OpError) (op : BitVec 4) (hbusy : s.status.busy = false)
    (hphase : s.status.phase = .idle) (hpend : s.pend = .none) :
    raiseError e (accept op s) =
      { s with
        status := { s.status with lastOp := op, valid := false, err := e.kind }
        terr := e.terr s.terr } := by
  simp only [raiseError, accept, hbusy, hphase, hpend]

/-- Settles O18: `illegalCommand` in its two cases, the error at acceptance and the overrun. -/
theorem reservedOpRaisesIllegalCommand : Obligations.ReservedOpRaisesIllegalCommand := by
  unfold Obligations.ReservedOpRaisesIllegalCommand
  intro p hp s
  rw [exec_illegalInstrs hp, illegalCommand]
  constructor
  · intro hbusy hphase hpend
    rw [whileIdle_idle hbusy, raiseError_accept_idle _ _ hbusy hphase hpend]
    rfl
  · intro hbusy
    rw [whileIdle_busy hbusy]
    rfl

end Sys2Proof.Machine
end

section
/-! The mode table (40_mode_table.md): its lookups (R100 to R103), SET_MODE and GET_MODE (R104, R105), and the only
writers of MODE and MODE_DELAY (R107). -/

namespace Sys2Proof.Machine

variable {s t : State}

/-- The valid codes are the code column of the table. -/
theorem isValidMode_iff_mem_codes {c : Byte} : isValidMode c = true ↔ c ∈ modeTable.map Mode.code := by
  rw [isValidMode, lookupMode, List.find?_isSome, List.mem_map]
  simp only [beq_iff_eq]

/-- Settles O15: the nine codes are the code column of `modeTable`. -/
theorem validModesAreTheNineCodes : Obligations.ValidModesAreTheNineCodes := by
  unfold Obligations.ValidModesAreTheNineCodes
  exact fun c => isValidMode_iff_mem_codes

/-- Settles O16: the lookup of a row's code finds that row (`lookupMode_of_mem`). -/
theorem setModeStoresAValidMode : Obligations.SetModeStoresAValidMode := by
  unfold Obligations.SetModeStoresAValidMode
  intro s m hm hbusy
  have hset : setMode m.code s = { accept 0x2 s with mode := m } := setMode_valid (lookupMode_of_mem hm)
  calc exec (.setMode m.code) s = .next (whileIdle (setMode m.code) s) := rfl
    _ = .next { accept 0x2 s with mode := m } := by rw [whileIdle_idle hbusy, hset]

/-! GET_MODE. -/

/-- Settles O22: the first word is the append that `readRegister` gives for MODE; its fields are that append's
parts. -/
theorem getModeReturnsModeAndDelay : Obligations.GetModeReturnsModeAndDelay := by
  unfold Obligations.GetModeReturnsModeAndDelay
  intro s
  refine ⟨0#20 ++ s.mode.index ++ s.mode.code, rfl, BitVec.extractLsb'_append_eq_right, ?_, ?_⟩ <;>
    rw [BitVec.extractLsb'_append_eq_of_le (by decide)]
  · exact BitVec.extractLsb'_append_eq_right
  · exact BitVec.extractLsb'_append_eq_left

/-- Settles O23: neither single read begins a GET_MODE, the first for want of a second access, the second by its
offset. -/
theorem getModeIsItsTwoReads : Obligations.GetModeIsItsTwoReads := by
  unfold Obligations.GetModeIsItsTwoReads
  intro s t u rest hi hfirst hsecond
  rw [step_read rfl (by simp)] at hfirst
  cases hfirst
  rw [step_read rfl (by simp)] at hsecond
  cases hsecond
  rw [step_getMode hi]
  rfl

/-! The writers of MODE and MODE_DELAY. -/

@[simp] theorem timerTick_mode (s : State) : (timerTick s).mode = s.mode := by
  obtain ⟨_, he⟩ | ⟨_, _, he⟩ | ⟨_, _, _, he⟩ | ⟨_, _, _, he⟩ := timerTick_cases s <;> rw [he] <;> rfl

/-- Settles O37: of the steps of `step_kind`, only block reset and a SET_MODE whose lookup finds a row write the
mode. -/
theorem modeChangesOnlyBySetMode : Obligations.ModeChangesOnlyBySetMode := by
  unfold Obligations.ModeChangesOnlyBySetMode
  intro s t h hne
  cases step_kind h with
  | blockReset hi => exact .inl ⟨_, hi⟩
  | setMode w m hi hb ho hm =>
    obtain ⟨hmem, hcode⟩ := lookupMode_mem hm
    exact .inr ⟨w, _, hi, hb, ho, hmem, hcode⟩
  | tick hi => exact absurd (timerTick_mode _) hne
  | _ => exact absurd rfl hne

end Sys2Proof.Machine
end

section
/-! The invariant of the reachable states is kept by every step: by a step that shows in none of its fields, by one
that leaves the engine idle, by the start of an operation, and by the advance of the operation in progress. -/

namespace Sys2Proof.Machine

variable {s t : State}

/-! What the invariant says of an idle engine and of an operation in progress. -/

theorem State.Inv.phase_of_not_busy (hinv : s.Inv) (hb : s.status.busy = false) : s.status.phase = .idle := by
  by_contra hp
  exact absurd (hinv.busy_phase.mpr hp) (by simp [hb])

theorem State.Inv.busy_of_phase (hinv : s.Inv) {p : Phase} (hp : s.status.phase = p) (hne : p ≠ .idle) :
    s.status.busy = true :=
  hinv.busy_phase.mpr (hp ▸ hne)

/-- A request is outstanding only while an operation is in progress (R41, R25). -/
theorem State.Inv.busy_of_pend (hinv : s.Inv) {p : Pend} (hp : s.pend = p) (hne : p ≠ .none) : s.status.busy = true :=
  hinv.busy_phase.mpr fun hidle => hne (by rw [← hp, hinv.pend_phase, hidle, Phase.pend])

theorem State.Inv.phase_of_pend_read (hinv : s.Inv) (hp : s.pend = .read) : s.status.phase = .read := by
  have h := hinv.pend_phase
  cases hphase : s.status.phase <;> simp [hp, hphase, Phase.pend] at h ⊢

/-- While the read is outstanding its operation is one that reads (R150). -/
theorem State.Inv.op_of_pend_read (hinv : s.Inv) (hp : s.pend = .read) : s.cur.op ≠ .reset :=
  hinv.read_op (hinv.phase_of_pend_read hp)

/-- The frame that an operation latches is a command frame (R82). -/
theorem cmd_mem_commandFrameBytes (hmode : s.mode ∈ modeTable) (hlatched : s.latchesAgree) :
    s.cur.cmd ∈ commandFrameBytes := by
  unfold State.latchesAgree at hlatched
  split at hlatched <;> rw [hlatched.1]
  · decide
  · decide
  · exact code_mem_commandFrameBytes hmode

/-! The OPs of the errors (R180). -/

theorem transportError_allows (op : BusOp) : ErrKind.allows op.code .transportError := by
  cases op
  · exact .inl rfl
  · exact .inr (.inl rfl)
  · exact .inr (.inr rfl)

/-- The two operations that read. -/
theorem BusOp.code_of_ne_reset {op : BusOp} (h : op ≠ .reset) : op.code = 0x3 ∨ op.code = 0x4 := by
  cases op
  · exact absurd rfl h
  · exact .inl rfl
  · exact .inr rfl

/-! The kinds of steps. -/

/-- The invariant says nothing of OVR, the inputs to come and the words read. -/
theorem State.Inv.of_unseen (hinv : s.Inv) (ovr : Bool) (inputs : List Input) (reads : List Word) :
    State.Inv { s with status := { s.status with ovr := ovr }, inputs := inputs, hostReads := reads } :=
  ⟨hinv.mode_in_table, hinv.busy_phase, hinv.pend_phase, hinv.latched, hinv.latched_addr, hinv.last_op, hinv.read_op,
    hinv.wait_timer, hinv.busy_outcome, hinv.valid_outcome, hinv.err_op, hinv.issued_legal, hinv.request_issued⟩

/-- The invariant of an idle engine: the table's mode, the last outcome, and the requests issued. -/
theorem State.inv_of_idle (hbusy : t.status.busy = false) (hphase : t.status.phase = .idle) (hpend : t.pend = .none)
    (hmode : t.mode ∈ modeTable)
    (hvalid : t.status.valid = true → t.status.err = .none ∧ (t.status.lastOp = 0x3 ∨ t.status.lastOp = 0x4))
    (herr : t.status.err.allows t.status.lastOp) (hissued : ∀ r ∈ t.issued, r.legal) : t.Inv where
  mode_in_table := hmode
  busy_phase := by simp [hbusy, hphase]
  pend_phase := by rw [hpend, hphase, Phase.pend]
  latched := by simp [hbusy]
  latched_addr := by simp [hbusy]
  last_op := by simp [hbusy]
  read_op := by simp [hphase]
  wait_timer := by simp [hphase]
  busy_outcome := by simp [hbusy]
  valid_outcome := hvalid
  err_op := herr
  issued_legal := hissued
  request_issued := by simp [State.request, hpend]

/-- An accepted bus command (R141, R143) whose latches are those of its operation. -/
theorem State.Inv.start_accept (hinv : s.Inv) {op : BusOp} {cmd : Byte} {us : Word}
    (hlatched : (start op cmd us (accept op.code s)).latchesAgree) : (start op cmd us (accept op.code s)).Inv where
  mode_in_table := hinv.mode_in_table
  busy_phase := by simp
  pend_phase := rfl
  latched _ := hlatched
  latched_addr _ := rfl
  last_op _ := rfl
  read_op := nofun
  wait_timer := nofun
  busy_outcome _ := ⟨rfl, rfl⟩
  valid_outcome := nofun
  err_op := trivial
  issued_legal :=
    have hlegal : cmd ∈ commandFrameBytes :=
      cmd_mem_commandFrameBytes (s := start op cmd us (accept op.code s)) hinv.mode_in_table hlatched
    List.forall_mem_cons.mpr ⟨hlegal, hinv.issued_legal⟩
  request_issued _ hr := hr

/-- The operation in progress as it enters the phase `p` or stays in it: the latches, the address, the mode and the
other flags stay. -/
def State.advance (s : State) (p : Phase) (timer : Nat) (issued : List Request) : State :=
  { s with status := { s.status with phase := p }, pend := p.pend, timer, issued }

/-- The write is accepted (R144). -/
theorem takeWriteAnswer_ok_eq_advance (s : State) :
    takeWriteAnswer .ok s = s.advance .wait (s.cur.delayUs.toNat * Config.ticksPerUs) s.issued := rfl

/-- The timer counts down (R191). -/
theorem State.Inv.count_eq_advance (hinv : s.Inv) (hp : s.status.phase = .wait) (n : Nat) :
    { s with timer := n } = s.advance .wait n s.issued := by
  simp only [State.advance, Phase.pend, ← hp, ← hinv.pend_of_wait hp]

/-- The read is issued (R145). -/
theorem startRead_eq_advance (s : State) (n : Nat) :
    startRead { s with timer := n } = s.advance .read n (.busRead s.cur.addr 6 :: s.issued) := rfl

theorem State.Inv.advance (hinv : s.Inv) (hbusy : s.status.busy = true) {p : Phase} {n : Nat} {issued : List Request}
    (hp : p ≠ .idle) (hread : p = .read → s.cur.op ≠ .reset)
    (hwait : p = .wait → 0 < n ∧ n ≤ s.cur.delayUs.toNat * Config.ticksPerUs)
    (hissued : ∀ r ∈ issued, r.legal)
    (hrequest : ∀ r, (s.advance p n issued).request = some r → issued.head? = some r) :
    (s.advance p n issued).Inv where
  mode_in_table := hinv.mode_in_table
  busy_phase := iff_of_true hbusy hp
  pend_phase := rfl
  latched := hinv.latched
  latched_addr := hinv.latched_addr
  last_op := hinv.last_op
  read_op := hread
  wait_timer := hwait
  busy_outcome := hinv.busy_outcome
  valid_outcome := hinv.valid_outcome
  err_op := hinv.err_op
  issued_legal := hissued
  request_issued := hrequest

/-! The errors (R186). -/

/-- An error leaves the engine idle, with an outcome that its command allows. -/
theorem State.inv_raiseError {e : OpError} (hmode : s.mode ∈ modeTable) (hissued : ∀ r ∈ s.issued, r.legal)
    (herr : e.kind.allows s.status.lastOp) : (raiseError e s).Inv :=
  State.inv_of_idle rfl rfl rfl hmode nofun herr hissued

/-- An error at acceptance (R104, R77). -/
theorem State.Inv.raiseError_accept (hinv : s.Inv) {e : OpError} {op : BitVec 4} (herr : e.kind.allows op) :
    (raiseError e (accept op s)).Inv :=
  State.inv_raiseError (s := accept op s) hinv.mode_in_table hinv.issued_legal herr

/-- A failed request (R147): every bus operation can end in TRANSPORT_ERROR. -/
theorem State.Inv.raiseTransportError (hinv : s.Inv) (hbusy : s.status.busy = true) (info : Word) :
    (raiseError (.transportError info) s).Inv := by
  have herr : ErrKind.allows s.status.lastOp .transportError := by
    rw [hinv.last_op hbusy]
    exact transportError_allows s.cur.op
  exact State.inv_raiseError hinv.mode_in_table hinv.issued_legal herr

/-! The answers to the read (R146). -/

theorem State.Inv.last_op_of_pend_read (hinv : s.Inv) (hp : s.pend = .read) :
    s.status.lastOp = 0x3 ∨ s.status.lastOp = 0x4 := by
  rw [hinv.last_op (hinv.busy_of_pend hp nofun)]
  exact BusOp.code_of_ne_reset (hinv.op_of_pend_read hp)

/-- A corrupt frame. -/
theorem State.Inv.raiseChecksumError (hinv : s.Inv) (hp : s.pend = .read) (b : Frame) :
    (raiseError .checksumError (receive b s)).Inv :=
  State.inv_raiseError (s := receive b s) hinv.mode_in_table hinv.issued_legal (hinv.last_op_of_pend_read hp)

/-- The success of the read, whatever results and RXBUF it leaves. -/
theorem State.Inv.completeWithValue (hinv : s.Inv) (hp : s.pend = .read) (results : Results) (b : Frame) :
    (completeWithValue { s with pend := .none, results := results, rxbuf := b }).Inv := by
  obtain ⟨_, herr⟩ := hinv.busy_outcome (hinv.busy_of_pend hp nofun)
  exact State.inv_of_idle rfl rfl rfl hinv.mode_in_table (fun _ => ⟨herr, hinv.last_op_of_pend_read hp⟩) hinv.err_op
    hinv.issued_legal

/-! The settle timer (R144, R145). -/

/-- Every operation has a settle delay (R150, R151, R100). -/
theorem delayUs_pos (hmode : s.mode ∈ modeTable) (hlatched : s.latchesAgree) : 0 < s.cur.delayUs.toNat := by
  have hrow : ∀ m ∈ modeTable, 0 < m.delayUs.toNat := by decide
  unfold State.latchesAgree at hlatched
  split at hlatched <;> rw [hlatched.2]
  · decide
  · decide
  · exact hrow _ hmode

/-- The accepted write starts the settle timer at its load, which is not zero. -/
theorem State.Inv.takeWriteAnswer_ok (hinv : s.Inv) (hp : s.pend = .write) : (takeWriteAnswer .ok s).Inv := by
  have hbusy := hinv.busy_of_pend hp nofun
  have hload : 0 < s.cur.delayUs.toNat * Config.ticksPerUs :=
    Nat.mul_pos (delayUs_pos hinv.mode_in_table (hinv.latched hbusy)) (Nat.succ_pos _)
  rw [takeWriteAnswer_ok_eq_advance]
  exact hinv.advance hbusy nofun nofun (fun _ => ⟨hload, le_rfl⟩) hinv.issued_legal nofun

/-- A tick counts down to no less than 1, or expires: it ends a RESET or issues the read. -/
theorem State.Inv.timerTick (hinv : s.Inv) : (timerTick s).Inv := by
  obtain ⟨_, he⟩ | ⟨hp, ht, he⟩ | ⟨hp, ht, ho, he⟩ | ⟨hp, ht, ho, he⟩ := timerTick_cases s <;> rw [he]
  · exact hinv
  · have hle := (hinv.wait_timer hp).2
    rw [hinv.count_eq_advance hp]
    exact hinv.advance (hinv.busy_of_phase hp nofun) nofun nofun (fun _ => by omega) hinv.issued_legal nofun
  · exact State.inv_of_idle rfl rfl (hinv.pend_of_wait hp) hinv.mode_in_table hinv.valid_outcome hinv.err_op
      hinv.issued_legal
  · rw [startRead_eq_advance]
    have hissued : ∀ r ∈ Request.busRead s.cur.addr 6 :: s.issued, r.legal :=
      List.forall_mem_cons.mpr ⟨rfl, hinv.issued_legal⟩
    exact hinv.advance (hinv.busy_of_phase hp nofun) nofun (fun _ => ho) nofun hissued fun _ hr => hr

/-- Settles O42: the inputs to come are not the invariant's, and each way of `step_kind` to leave a state is an update
that keeps it. -/
theorem everyStepKeepsTheInvariant : Obligations.EveryStepKeepsTheInvariant := by
  unfold Obligations.EveryStepKeepsTheInvariant
  intro s t hinv h
  cases step_kind h with
  | noInput => exact hinv
  | read | getMode | writeIgnored | writeBusy | writeStatus | clearOvr | lateWriteAnswer | lateReadAnswer =>
    exact hinv.of_unseen _ _ _
  | acceptReset => exact hinv.withInputs.start_accept ⟨rfl, rfl⟩
  | acceptReadSerial => exact hinv.withInputs.start_accept ⟨rfl, rfl⟩
  | acceptReadMeasurement => exact hinv.withInputs.start_accept ⟨rfl, modeDelayUs_of_mem hinv.mode_in_table⟩
  | setMode w m hi hb ho hm =>
    exact State.inv_of_idle hb (hinv.phase_of_not_busy hb) (hinv.pend_of_not_busy hb) (lookupMode_mem hm).1 nofun
      trivial hinv.issued_legal
  | setModeInvalid => exact hinv.withInputs.raiseError_accept (e := .invalidArgument) rfl
  | illegal w hi hb ho => exact hinv.withInputs.raiseError_accept (e := .illegalCommand) ho
  | setAddr v hi hb =>
    exact State.inv_of_idle hb (hinv.phase_of_not_busy hb) (hinv.pend_of_not_busy hb) hinv.mode_in_table
      hinv.valid_outcome hinv.err_op hinv.issued_legal
  | @writeOk rest hi hp => exact (hinv.withInputs (inputs := rest)).takeWriteAnswer_ok hp
  | @writeError rest info hi hp =>
    exact (hinv.withInputs (inputs := rest)).raiseTransportError (hinv.busy_of_pend hp nofun) info
  | @readError rest info hi hp =>
    exact (hinv.withInputs (inputs := rest)).raiseTransportError (hinv.busy_of_pend hp nofun) info
  | @readCorrupt rest b hi hp => exact (hinv.withInputs (inputs := rest)).raiseChecksumError hp b
  | @readSerial rest b hi hp => exact (hinv.withInputs (inputs := rest)).completeWithValue hp _ b
  | @readMeasurement rest b hi hp => exact (hinv.withInputs (inputs := rest)).completeWithValue hp _ b
  | tick => exact hinv.withInputs.timerTick
  | blockReset =>
    exact State.inv_of_idle rfl rfl rfl resetMeetsTheInvariant.mode_in_table nofun trivial hinv.issued_legal

end Sys2Proof.Machine
end

section
/-! The checksum and the frame validator (41_checksum_extract.md). -/

namespace Sys2Proof.Machine

/-! ## The accumulator that is never masked (R121)

One form is the other modulo 256 at every shift, as no step moves a bit down. -/

theorem ofNat_crcShiftUnmasked (c : Nat) :
    BitVec.ofNat 8 (crcShiftUnmasked c) = crcShift (BitVec.ofNat 8 c) := by
  have hmsb : (BitVec.ofNat 8 c).msb = c.testBit 7 := by
    rw [BitVec.msb_eq_getLsbD_last, BitVec.getLsbD_ofNat]
    rfl
  have hshift : BitVec.ofNat 8 (c <<< 1) = BitVec.ofNat 8 c <<< 1 := by
    apply BitVec.eq_of_toNat_eq
    simp [Nat.shiftLeft_eq]
  unfold crcShiftUnmasked crcShift
  rw [hmsb]
  split
  · rw [BitVec.ofNat_xor, hshift]
    rfl
  · exact hshift

theorem crcByte_eq_iterate (c d : Byte) : crcByte c d = crcShift^[8] (c ^^^ d) := rfl

theorem crcByteUnmasked_eq_iterate (c : Nat) (d : Byte) :
    crcByteUnmasked c d = crcShiftUnmasked^[8] (c ^^^ d.toNat) := rfl

theorem ofNat_crcByteUnmasked (c : Nat) (d : Byte) :
    BitVec.ofNat 8 (crcByteUnmasked c d) = crcByte (BitVec.ofNat 8 c) d := by
  have hsemi : Function.Semiconj (BitVec.ofNat 8) crcShiftUnmasked crcShift := ofNat_crcShiftUnmasked
  rw [crcByteUnmasked_eq_iterate, hsemi.iterate_right 8, BitVec.ofNat_xor, BitVec.ofNat_toNat,
    BitVec.setWidth_eq, crcByte_eq_iterate]

/-- Settles O44: masking commutes with the work on each byte. -/
theorem maskingEarlyGivesTheSameChecksum : Obligations.MaskingEarlyGivesTheSameChecksum := by
  unfold Obligations.MaskingEarlyGivesTheSameChecksum
  intro d0 d1
  rw [crc8MaskedAtEnd, ofNat_crcByteUnmasked, ofNat_crcByteUnmasked]
  rfl

/-! ## A changed byte changes the checksum (R128)

A shift loses no information: the bit that leaves at the top is read again at the bottom, where 0x31 has a one. So the
checksum determines either byte of a field from the other. -/

theorem crcShift_bit_zero (c : Byte) : (crcShift c).getLsbD 0 = c.msb := by
  unfold crcShift
  split <;> simp [*]

theorem eq_of_shiftLeft_one_eq {c e : Byte} (hshift : c <<< 1 = e <<< 1) (hmsb : c.msb = e.msb) : c = e := by
  apply BitVec.eq_of_getElem_eq
  intro i hi
  obtain rfl | hlt := Nat.eq_or_lt_of_le (Nat.le_of_lt_succ hi)
  · exact hmsb
  · have hi1 : i + 1 < 8 := by omega
    have hbit := congrArg (BitVec.getLsbD · (i + 1)) hshift
    simpa [hi1] using hbit

theorem crcShift_injective : Function.Injective crcShift := by
  intro c e h
  have hmsb : c.msb = e.msb := by rw [← crcShift_bit_zero c, h, crcShift_bit_zero]
  have hshift : c <<< 1 = e <<< 1 := by
    unfold crcShift at h
    rw [hmsb] at h
    split at h
    · exact (BitVec.xor_left_inj _).mp h
    · exact h
  exact eq_of_shiftLeft_one_eq hshift hmsb

theorem crcByte_left_injective (d : Byte) : Function.Injective (crcByte · d) := by
  intro a b h
  exact (BitVec.xor_left_inj d).mp (crcShift_injective.iterate 8 h)

theorem crcByte_right_injective (c : Byte) : Function.Injective (crcByte c) := by
  intro a b h
  exact (BitVec.xor_right_inj c).mp (crcShift_injective.iterate 8 h)

@[simp] theorem crc8_left_inj (a b d : Byte) : crc8 a d = crc8 b d ↔ a = b :=
  ((crcByte_left_injective d).comp (crcByte_right_injective 0xFF)).eq_iff

@[simp] theorem crc8_right_inj (d a b : Byte) : crc8 d a = crc8 d b ↔ a = b :=
  (crcByte_right_injective _).eq_iff

theorem frameValid_iff (b : Frame) : frameValid b = true ↔ crc8 b.b0 b.b1 = b.b2 ∧ crc8 b.b3 b.b4 = b.b5 := by
  simp [frameValid]

theorem xor_bit_ne_self (x : Byte) {k : Nat} (hk : k < 8) : x ^^^ (1#8 <<< k) ≠ x := by
  have hbit : ∀ k < 8, 1#8 <<< k ≠ 0#8 := by decide
  simpa using hbit k hk

/-- The flipped bit is a data bit, and changes the computed checksum, or a checksum bit, and changes the
stored one. -/
theorem frameValid_flipBit {b : Frame} {k : Nat} (hk : k < 48) (hv : frameValid b = true) :
    frameValid (flipBit b k) = false := by
  have hflip (x : Byte) : x ^^^ (1#8 <<< (k % 8)) ≠ x := xor_bit_ne_self x (Nat.mod_lt k (by decide))
  obtain ⟨h0, h1⟩ := (frameValid_iff b).mp hv
  have hbyte : k / 8 < 6 := by omega
  rw [Bool.eq_false_iff, ne_eq, frameValid_iff, flipBit, ← h0, ← h1]
  interval_cases k / 8 <;> simp [hflip, (hflip _).symm, crc8_left_inj, crc8_right_inj]

/-- Settles O45: a checksum determines either byte of its field from the other, so no flip is missed. -/
theorem flippedBitInvalidatesAFrame : Obligations.FlippedBitInvalidatesAFrame := by
  unfold Obligations.FlippedBitInvalidatesAFrame
  refine ⟨frameValid_iff, by decide +kernel, by decide +kernel, ?_, fun b k => frameValid_flipBit⟩
  intro d0 d1 k hk
  have hflip (x : Byte) : x ^^^ (1#8 <<< k) ≠ x := xor_bit_ne_self x hk
  exact ⟨mt (crc8_left_inj ..).mp (hflip d0), mt (crc8_right_inj ..).mp (hflip d1)⟩

end Sys2Proof.Machine
end

section
/-! The bus operations (42_bus_operations.md), rule by rule: the host's writes that start one or meet one in progress
(R141, R142, R154, R155), the answered command frame (R144), the settle timer (R145) and the answer to the read
(R146). -/

namespace Sys2Proof.Machine

variable {s : State} {rest : List Input}

/-! The accepted bus commands (R141, R143). -/

theorem exec_reset_idle (hb : s.status.busy = false) :
    exec .reset s = .next (start .reset 0x94 1000 (accept 0x1 s)) :=
  congrArg Host.Outcome.next (whileIdle_idle hb)

theorem exec_readSerial_idle (hb : s.status.busy = false) :
    exec .readSerial s = .next (start .readSerial 0x89 10000 (accept 0x3 s)) :=
  congrArg Host.Outcome.next (whileIdle_idle hb)

/-- The delay of a mode in the table is the one that MODE_DELAY shows (R107). -/
theorem exec_readMeasurement_idle (hb : s.status.busy = false) (hmode : s.mode ∈ modeTable) :
    exec .readMeasurement s = .next (start .readMeasurement s.mode.code s.mode.delayUs (accept 0x4 s)) := by
  rw [← modeDelayUs_of_mem hmode]
  exact congrArg Host.Outcome.next (whileIdle_idle hb)

/-- Settles O14: `start` after `accept`, for each of the three commands. -/
theorem idleBusCommandStartsItsOperation : Obligations.IdleBusCommandStartsItsOperation := by
  unfold Obligations.IdleBusCommandStartsItsOperation
  exact fun s hb => ⟨exec_reset_idle hb, exec_readSerial_idle hb, exec_readMeasurement_idle hb⟩

/-! The host's writes to ADDR and STATUS, and those that meet an operation in progress. -/

theorem exec_setAddr_idle (a : Byte) (hb : s.status.busy = false) : exec (.setAddr a) s = .next (setAddr a s) :=
  congrArg Host.Outcome.next (whileIdle_idle hb)

theorem exec_setAddr_busy (a : Byte) (hb : s.status.busy = true) : exec (.setAddr a) s = .next (overrun s) :=
  congrArg Host.Outcome.next (whileIdle_busy hb)

/-- Settles O19: either write runs an instruction that BUSY turns into `overrun`. -/
theorem writeWhileBusyOnlySetsOvr : Obligations.WriteWhileBusyOnlySetsOvr := by
  unfold Obligations.WriteWhileBusyOnlySetsOvr
  rintro s off v rest hb (rfl | rfl) hi
  · exact (step_write_cmd hi).trans (exec_decodeCommand_busy v hb)
  · exact (step_write_addr hi).trans (exec_setAddr_busy _ hb)

/-- Settles O20: the two cases of BUSY, and the decoding of a write to ADDR (`step_write_addr`). -/
theorem setAddrStoresTheAddressWhileIdle : Obligations.SetAddrStoresTheAddressWhileIdle := by
  unfold Obligations.SetAddrStoresTheAddressWhileIdle
  exact ⟨fun s a => ⟨exec_setAddr_idle a, exec_setAddr_busy a⟩, fun s v rest hi => step_write_addr hi⟩

/-- CLEAR_OVR as one update, whatever its bit. -/
theorem exec_clearOvr (w1c : Bool) (s : State) :
    exec (.clearOvr w1c) s = .next { s with status := { s.status with ovr := s.status.ovr && !w1c } } := by
  cases w1c with
  | true =>
    rw [Bool.not_true, Bool.and_false]
    rfl
  | false =>
    rw [Bool.not_false, Bool.and_true]
    rfl

/-- Settles O21: the step of a write to STATUS is CLEAR_OVR of bit 7. -/
theorem clearOvrClearsOnlyOnBitSeven : Obligations.ClearOvrClearsOnlyOnBitSeven := by
  unfold Obligations.ClearOvrClearsOnlyOnBitSeven
  exact ⟨fun s => rfl, fun s => rfl, fun s v rest hi => (step_write_status hi).trans (exec_clearOvr _ _)⟩

/-! The answered command frame (R144). -/

theorem exec_frame_answered {p : Instr × Byte × Nat} {a : WriteAnswer} (hmem : p ∈ frameInstrs) (hp : s.pend = .write)
    (hcmd : s.cur.cmd = p.2.1) (hi : s.inputs = .writeAnswer a :: rest) :
    exec p.1 s = .next (takeWriteAnswer a (s.withInputs rest)) := by
  have hframe : decodeFrame p.2.1 = some p.1 := decodeFrame_eq_some_iff.mpr ⟨p.2.2, hmem⟩
  rw [exec_decodeFrame hframe, busFrame_answered hp hcmd hi]

/-- Settles O24: the frame's answer is the engine's (`exec_frame_answered`), and `Ok` starts the timer. -/
theorem answeredFrameStartsTheSettleDelay : Obligations.AnsweredFrameStartsTheSettleDelay := by
  unfold Obligations.AnsweredFrameStartsTheSettleDelay
  exact fun p hmem s rest hp hcmd hi => exec_frame_answered hmem hp hcmd hi

/-- Settles O25: the frame's answer is the engine's (`exec_frame_answered`), and a failure raises the error. -/
theorem failedFrameAbortsTheOperation : Obligations.FailedFrameAbortsTheOperation := by
  unfold Obligations.FailedFrameAbortsTheOperation
  exact fun p hmem s info rest hp hcmd hi => exec_frame_answered hmem hp hcmd hi

/-- The frame and the delay that an operation latches are one row of the table of frames (R150, R151, R152). -/
theorem latched_mem_frameInstrs (hmode : s.mode ∈ modeTable) (hlatched : s.latchesAgree) :
    ∃ p ∈ frameInstrs, p.2 = (s.cur.cmd, s.cur.delayUs.toNat) := by
  have hrow : ∀ m ∈ modeTable, ∃ p ∈ frameInstrs, p.2 = (m.code, m.delayUs.toNat) := by decide
  unfold State.latchesAgree at hlatched
  split at hlatched <;> rw [hlatched.1, hlatched.2]
  · exact ⟨(.busReset, 0x94, 1000), by decide, rfl⟩
  · exact ⟨(.busReadSerial, 0x89, 10000), by decide, rfl⟩
  · exact hrow _ hmode

/-- Settles O27: the timer is loaded from the latched delay, and the table of frames has one row for each byte. -/
theorem eachFrameHasItsSettleDelay : Obligations.EachFrameHasItsSettleDelay := by
  unfold Obligations.EachFrameHasItsSettleDelay
  intro p hmem s rest hinv hp hcmd hi
  have hbyte : ∀ p ∈ frameInstrs, ∀ q ∈ frameInstrs, p.2.1 = q.2.1 → p.2.2 = q.2.2 := by decide
  obtain ⟨q, hq, hlatched⟩ := latched_mem_frameInstrs hinv.mode_in_table (hinv.latched (hinv.busy_of_pend hp nofun))
  have hdelay : s.cur.delayUs.toNat = p.2.2 := by
    have hsame : q.2.1 = p.2.1 := by rw [hlatched, hcmd]
    rw [← hbyte q hq p hmem hsame, hlatched]
  exact ⟨_, exec_frame_answered hmem hp hcmd hi, rfl, congrArg (· * Config.ticksPerUs) hdelay⟩

/-! The settle timer (R145, R191). -/

/-- Settles O28: the cases of `timerTick`, and at the expiry those of `expire`. -/
theorem settleTimerCountsDownToExpiry : Obligations.SettleTimerCountsDownToExpiry := by
  unfold Obligations.SettleTimerCountsDownToExpiry
  intro s rest hi
  rw [step_tick hi]
  refine ⟨fun hp ht => ?_, fun hp ht ho => ?_, fun hp ht ho => ?_, fun hp => ?_⟩ <;> congr 1
  · exact timerTick_count hp ht
  · exact (timerTick_expire (s := s.withInputs rest) hp ht.le).trans (expire_reset ho)
  · exact (timerTick_expire (s := s.withInputs rest) hp ht.le).trans (expire_read ho)
  · exact timerTick_outside hp

/-! The answer to the read (R146). -/

variable {b : Frame}

theorem takeReadAnswer_corrupt (hv : frameValid b = false) :
    takeReadAnswer (.ok b) s = .next (raiseError .checksumError (receive b s)) := by
  simp [takeReadAnswer, hv]

theorem takeReadAnswer_serial (hv : frameValid b = true) (ho : s.cur.op = .readSerial) :
    takeReadAnswer (.ok b) s = .next (completeWithValue (storeSerial b (receive b s))) := by
  simp [takeReadAnswer, takeValidFrame, hv, ho]

theorem takeReadAnswer_measurement (hv : frameValid b = true) (ho : s.cur.op = .readMeasurement) :
    takeReadAnswer (.ok b) s = .next (completeWithValue (storeMeasurement b (receive b s))) := by
  simp [takeReadAnswer, takeValidFrame, hv, ho]

/-- Settles O29: the outstanding read takes the answer, in one of four ways. -/
theorem readAnswerCompletesOrAborts : Obligations.ReadAnswerCompletesOrAborts := by
  unfold Obligations.ReadAnswerCompletesOrAborts
  refine fun s rest hp => ⟨fun info hi => step_readAnswer_pending hi hp, fun b hi => ?_⟩
  rw [step_readAnswer_pending hi hp]
  refine ⟨takeReadAnswer_corrupt, fun hv ho => ?_, fun hv ho => ?_⟩
  · exact takeReadAnswer_serial (s := s.withInputs rest) hv ho
  · exact ⟨_, takeReadAnswer_measurement hv ho, rfl, rfl, rfl, high_append_low _, high_append_low _⟩

end Sys2Proof.Machine
end

section
/-! The operation in progress (R140): what moves PHASE, and what leaves the operation as it is. -/

namespace Sys2Proof.Machine

variable {s t : State}

theorem State.Inv.phase_of_pend_write (hinv : s.Inv) (hp : s.pend = .write) : s.status.phase = .write := by
  have h := hinv.pend_phase
  cases hphase : s.status.phase <;> simp [hp, hphase, Phase.pend] at h ⊢

theorem State.Inv.not_busy_of_idle (hinv : s.Inv) (hp : s.status.phase = .idle) : s.status.busy = false :=
  Bool.eq_false_iff.mpr fun hb => hinv.busy_phase.mp hb hp

/-- A tick moves PHASE only at the expiry, in WAIT with TIMER = 1 (R145). -/
theorem phase_of_timerTick (hinv : s.Inv) (hne : (timerTick s).status.phase ≠ s.status.phase) :
    s.status.phase = .wait ∧ s.timer = 1 ∧
      ((s.cur.op = .reset ∧ (timerTick s).status.phase = .idle) ∨
        (s.cur.op ≠ .reset ∧ (timerTick s).status.phase = .read)) := by
  obtain ⟨_, he⟩ | ⟨_, _, he⟩ | ⟨hp, ht, ho, he⟩ | ⟨hp, ht, ho, he⟩ := timerTick_cases s
  · exact absurd (by rw [he]) hne
  · exact absurd (by rw [he]) hne
  · exact ⟨hp, le_antisymm ht (hinv.wait_timer hp).1, .inl ⟨ho, by rw [he]; rfl⟩⟩
  · exact ⟨hp, le_antisymm ht (hinv.wait_timer hp).1, .inr ⟨ho, by rw [he]; rfl⟩⟩

/-- Settles O31: of the steps of `step_kind`, those that move PHASE; the invariant gives the phase of each. -/
theorem phaseMovesOnlyAsTabled : Obligations.PhaseMovesOnlyAsTabled := by
  unfold Obligations.PhaseMovesOnlyAsTabled
  intro s t inp rest hinv hinp h hne
  cases step_kind h with
  | acceptReset w hi hb ho | acceptReadSerial w hi hb ho | acceptReadMeasurement w hi hb ho =>
    cases hinp.symm.trans hi
    have hop : opField w ∈ [0x1#4, 0x3#4, 0x4#4] := by simp [ho]
    exact .inl ⟨hinv.phase_of_not_busy hb, rfl, w, rfl, hop⟩
  | setModeInvalid w hi hb | illegal w hi hb => exact absurd (hinv.phase_of_not_busy hb).symm hne
  | writeOk hi hp =>
    cases hinp.symm.trans hi
    exact .inr (.inl ⟨hinv.phase_of_pend_write hp, rfl, rfl⟩)
  | writeError info hi hp =>
    cases hinp.symm.trans hi
    exact .inr (.inr (.inl ⟨hinv.phase_of_pend_write hp, rfl, info, rfl⟩))
  | tick hi =>
    cases hinp.symm.trans hi
    obtain ⟨hp, ht, ⟨ho, hphase⟩ | ⟨ho, hphase⟩⟩ := phase_of_timerTick hinv.withInputs hne
    · exact .inr (.inr (.inr (.inl ⟨hp, hphase, rfl, ht, ho⟩)))
    · exact .inr (.inr (.inr (.inr (.inl ⟨hp, hphase, rfl, ht, ho⟩))))
  | readError _ hi hp | readCorrupt _ hi hp | readSerial _ hi hp | readMeasurement _ hi hp =>
    cases hinp.symm.trans hi
    exact .inr (.inr (.inr (.inr (.inr (.inl ⟨hinv.phase_of_pend_read hp, rfl, _, rfl⟩)))))
  | blockReset hi =>
    cases hinp.symm.trans hi
    exact .inr (.inr (.inr (.inr (.inr (.inr ⟨rfl, rfl⟩)))))
  | _ => exact absurd rfl hne

/-- Settles O32: of the steps of `step_kind`, those that move the operation are excluded: a command is accepted only
while BUSY = 0, an answer taken only in its phase, and a tick counts only in WAIT. -/
theorem operationInProgressRunsOnUntouched : Obligations.OperationInProgressRunsOnUntouched := by
  unfold Obligations.OperationInProgressRunsOnUntouched
  intro s t inp rest hinv hbusy hinp h hreset htick hwrite hread
  cases step_kind h with
  | acceptReset _ _ hb | acceptReadSerial _ _ hb | acceptReadMeasurement _ _ hb | setMode _ _ _ hb
  | setModeInvalid _ _ hb | illegal _ _ hb | setAddr _ _ hb => exact absurd (hbusy.symm.trans hb) nofun
  | writeOk hi hp | writeError _ hi hp =>
    cases hinp.symm.trans hi
    exact absurd (hinv.phase_of_pend_write hp) (hwrite _ rfl)
  | readError _ hi hp | readCorrupt _ hi hp | readSerial _ hi hp | readMeasurement _ hi hp =>
    cases hinp.symm.trans hi
    exact absurd (hinv.phase_of_pend_read hp) (hread _ rfl)
  | tick hi =>
    cases hinp.symm.trans hi
    rw [timerTick_outside (s := s.withInputs rest) (htick rfl)]
    rfl
  | blockReset hi =>
    cases hinp.symm.trans hi
    exact absurd rfl hreset
  | _ => rfl

end Sys2Proof.Machine
end

section
/-! Bus operations from the CMD write to their end (R150 to R152): acceptance, the answered write, the settle delay
tick by tick, and the answered read. -/

namespace Sys2Proof.Machine

variable {s : State} {w : Word} {op : BusOp} {cmd : Byte} {us : Word} {rest : List Input}

/-! The acceptance of each bus command, from the CMD write of its OP (R141). -/

theorem step_accept_reset (hi : s.inputs = .host (.write 0x00 4 w) :: rest) (ho : opField w = 0x1)
    (hb : s.status.busy = false) : step s = .next (start .reset 0x94 1000 (accept 0x1 (s.withInputs rest))) := by
  have hd : decodeCommand w = .reset := by simp [decodeCommand, ho]
  rw [step_write_cmd hi, hd]
  exact exec_reset_idle hb

theorem step_accept_readSerial (hi : s.inputs = .host (.write 0x00 4 w) :: rest) (ho : opField w = 0x3)
    (hb : s.status.busy = false) :
    step s = .next (start .readSerial 0x89 10000 (accept 0x3 (s.withInputs rest))) := by
  have hd : decodeCommand w = .readSerial := by simp [decodeCommand, ho]
  rw [step_write_cmd hi, hd]
  exact exec_readSerial_idle hb

theorem step_accept_readMeasurement (hi : s.inputs = .host (.write 0x00 4 w) :: rest) (ho : opField w = 0x4)
    (hb : s.status.busy = false) (hmode : s.mode ∈ modeTable) :
    step s = .next (start .readMeasurement s.mode.code s.mode.delayUs (accept 0x4 (s.withInputs rest))) := by
  have hd : decodeCommand w = .readMeasurement := by simp [decodeCommand, ho]
  rw [step_write_cmd hi, hd]
  exact exec_readMeasurement_idle hb hmode

/-! The run to the expiry, and to the result. -/

/-- An outstanding write that is answered `Ok`, with the ticks of its delay to come, expires with the last of them
(R144, R145). -/
theorem run_settle_delay {n : Nat} (k : Nat) (hp : s.pend = .write) (hn : 0 < n) (hus : s.cur.delayUs.toNat = n)
    (hi : s.inputs = .writeAnswer .ok :: (List.replicate (n * Config.ticksPerUs) .tick ++ rest)) :
    Sys2Proof.core.run (k + 1 + n * Config.ticksPerUs) s =
      Sys2Proof.core.run k (expire { takeWriteAnswer .ok (s.withInputs rest) with timer := 0 }) := by
  obtain ⟨m, hm⟩ : ∃ m, n * Config.ticksPerUs = m + 1 :=
    Nat.exists_eq_add_one.mpr (Nat.mul_pos hn (Nat.succ_pos _))
  have hcount : k + 1 + n * Config.ticksPerUs = m + 1 + k + 1 := by omega
  have hload : s.cur.delayUs.toNat * Config.ticksPerUs = m + 1 := hus ▸ hm
  rw [hm] at hi
  rw [hcount, run_step _ (step_writeAnswer_pending hi hp)]
  exact run_ticks m k rfl hload rfl

/-- The operation that `s` accepts, in WAIT with its settle delay over. -/
def State.settled (s : State) (op : BusOp) (cmd : Byte) (us : Word) : State :=
  { takeWriteAnswer .ok (start op cmd us (accept op.code s)) with timer := 0 }

/-- An accepted operation whose write is answered `Ok` runs to the expiry. -/
theorem run_to_expiry {n : Nat} (k : Nat) (hn : 0 < n) (hus : us.toNat = n)
    (haccept : step s = .next (start op cmd us (accept op.code (s.withInputs
      (.writeAnswer .ok :: (List.replicate (n * Config.ticksPerUs) .tick ++ rest)))))) :
    Sys2Proof.core.run (k + 2 + n * Config.ticksPerUs) s =
      Sys2Proof.core.run k (expire ((s.withInputs rest).settled op cmd us)) := by
  have hcount : k + 2 + n * Config.ticksPerUs = k + 1 + n * Config.ticksPerUs + 1 := by omega
  rw [hcount, run_step _ haccept]
  exact run_settle_delay k rfl hn hus rfl

/-- Settles O51: the expiry of a RESET is its end (`run_to_expiry`, `expire_reset`). -/
theorem resetCommandRunsToItsEnd : Obligations.ResetCommandRunsToItsEnd := by
  unfold Obligations.ResetCommandRunsToItsEnd
  intro s w rest hinv hp ho hi
  have haccept := step_accept_reset hi ho (hinv.not_busy_of_idle hp)
  have hrun := run_to_expiry (op := .reset) 0 (by decide) (by decide) haccept
  rw [expire_reset rfl, Nat.zero_add] at hrun
  exact ⟨_, hrun, rfl, rfl, rfl, rfl, rfl, rfl, rfl, rfl, rfl⟩

/-- An accepted operation that reads takes the frame that answers its read, one step after the expiry (R145, R146). -/
theorem run_to_result {n : Nat} {b : Frame} {t : State} (hn : 0 < n) (hus : us.toNat = n) (hop : op ≠ .reset)
    (haccept : step s = .next (start op cmd us (accept op.code (s.withInputs
      (.writeAnswer .ok :: (List.replicate (n * Config.ticksPerUs) .tick ++ .readAnswer (.ok b) :: rest))))))
    (hresult : takeReadAnswer (.ok b) (startRead ((s.withInputs rest).settled op cmd us)) = .next t) :
    Sys2Proof.core.run (3 + n * Config.ticksPerUs) s = .next t := by
  have hrun := run_to_expiry 1 hn hus haccept
  rw [expire_read hop] at hrun
  have hanswer := step_readAnswer_pending (a := .ok b) (rest := rest)
    (s := startRead ((s.withInputs (.readAnswer (.ok b) :: rest)).settled op cmd us)) rfl rfl
  exact hrun.trans ((run_step 0 (hanswer.trans hresult)).trans (run_zero t))

/-- Settles O52: the run to the answered read (`run_to_result`), which stores the serial number. -/
theorem readSerialRunsToItsResult : Obligations.ReadSerialRunsToItsResult := by
  unfold Obligations.ReadSerialRunsToItsResult
  intro s w b rest hinv hp ho hv hi
  have haccept := step_accept_readSerial hi ho (hinv.not_busy_of_idle hp)
  have hrun := run_to_result (op := .readSerial) (by decide) (by decide) nofun haccept (takeReadAnswer_serial hv rfl)
  exact ⟨_, hrun, rfl, rfl, rfl, rfl, rfl, rfl, rfl, rfl, rfl⟩

/-- Settles O53: the run to the answered read (`run_to_result`), with the mode's frame and delay, which stores the
measurement. -/
theorem readMeasurementRunsToItsResult : Obligations.ReadMeasurementRunsToItsResult := by
  unfold Obligations.ReadMeasurementRunsToItsResult
  intro s w b rest hinv hp ho hv hi
  have hrow : ∀ m ∈ modeTable, 0 < m.delayUs.toNat := by decide
  have haccept := step_accept_readMeasurement hi ho (hinv.not_busy_of_idle hp) hinv.mode_in_table
  have hrun := run_to_result (op := .readMeasurement) (hrow _ hinv.mode_in_table) rfl nofun haccept
    (takeReadAnswer_measurement hv rfl)
  exact ⟨_, hrun, rfl, rfl, rfl, rfl, rfl, rfl, high_append_low _, high_append_low _, rfl, rfl, rfl, rfl, rfl⟩

end Sys2Proof.Machine
end

section
/-! The operations of R8 as numbers: a result that is a natural number is exact (`value_round_mul`), any other is at
most half a unit in the last place away (`value_round_error`). -/

namespace Sys2Proof.Machine

/-! How far the rounding of `roundMag` moves a quotient. -/

theorem droppedBits_le {q k : Nat} (hk : k ≤ 1074) (h : q < 2 ^ (k + 53)) : droppedBits q ≤ k := by
  have hwidths : log2Widths = (List.range 12).reverse.map (2 ^ ·) := by decide
  have hrange : q < 2 ^ 2 ^ 12 := h.trans_le (Nat.pow_le_pow_right two_pos (by omega))
  have hlog : Nat.log 2 q < k + 53 := Nat.log_lt_of_lt_pow' (by omega) h
  rw [droppedBits, hwidths, floorLog2_eq_log 12 hrange]
  omega

/-- A quotient below `2^k` keeps 53 significant bits. -/
theorem droppedBits_quotient_le {n d k : Nat} (hk : k ≤ 53) (h : n < 2 ^ k * d) :
    droppedBits (n * 2 ^ 1074 / d) ≤ k + 1021 := by
  refine droppedBits_le (by omega) (Nat.div_lt_of_lt_mul ?_)
  calc n * 2 ^ 1074 < 2 ^ k * d * 2 ^ 1074 := Nat.mul_lt_mul_of_pos_right h (by positivity)
    _ = d * 2 ^ (k + 1021 + 53) := by rw [add_assoc, pow_add]; ring

theorem roundMag_lt_infinity {n d : Nat} (h : n < 2 ^ 53 * d) : roundMag n d < 0x7FF <<< 52 := by
  have hs := droppedBits_quotient_le le_rfl h
  obtain ⟨hq, -⟩ := droppedBits_bounds (hs.trans_lt (by decide))
  have hr := (roundQuotient_floor_or_ceil (n * 2 ^ 1074) (d * 2 ^ droppedBits (n * 2 ^ 1074 / d))).2
  rw [← Nat.div_div_eq_div_mul] at hr
  rw [← Nat.div_lt_iff_lt_mul (by positivity)] at hq
  simp only [roundMag, Nat.shiftLeft_eq]
  generalize n * 2 ^ 1074 = scaled at *
  omega

/-- A finite rounding is at most half a unit in the last place away. -/
theorem roundMag_half_ulp {n d : Nat} (hd : 0 < d) (h : roundMag n d < 0x7FF <<< 52) :
    2 * quotientError (n * 2 ^ 1074) d (magUnits (roundMag n d)) ≤ d * 2 ^ droppedBits (n * 2 ^ 1074 / d) := by
  obtain ⟨hs, hround⟩ := roundMag_of_finite h
  obtain ⟨hhi, hlo⟩ := droppedBits_bounds hs
  have hr := roundQuotient_floor_or_ceil (n * 2 ^ 1074) (d * 2 ^ droppedBits (n * 2 ^ 1074 / d))
  rw [← Nat.div_div_eq_div_mul] at hr
  rw [← Nat.div_lt_iff_lt_mul (by positivity)] at hhi
  rw [← Nat.le_div_iff_mul_le (by positivity)] at hlo
  rw [hround, magUnits_encode (by omega) (by omega), quotientError_mul]
  exact (roundQuotient_half (by positivity)).1

theorem quotientError_cast (n d k : Nat) : (quotientError n d k : ℚ) = |(k * d - n : ℚ)| := by
  rw [quotientError, Nat.cast_natAbs]
  push_cast
  rfl

/-- A quotient below `2^k` is rounded by at most half a unit in the last place of the numbers just below `2^k`. -/
theorem roundMag_error {n d k : Nat} (hk : k ≤ 53) (h : n < 2 ^ k * d) :
    |(magUnits (roundMag n d) / 2 ^ 1074 - n / d : ℚ)| ≤ 2 ^ k / 2 ^ 54 := by
  have hd : 0 < d := Nat.pos_of_lt_mul_left h
  have hfin := roundMag_lt_infinity (h.trans_le (Nat.mul_le_mul_right d (Nat.pow_le_pow_right two_pos hk)))
  have herr : ((2 * quotientError (n * 2 ^ 1074) d (magUnits (roundMag n d)) : Nat) : ℚ) ≤
      ((d * 2 ^ (k + 1021) : Nat) : ℚ) :=
    Nat.cast_le.mpr ((roundMag_half_ulp hd hfin).trans (Nat.mul_le_mul_left d
      (Nat.pow_le_pow_right two_pos (droppedBits_quotient_le hk h))))
  generalize magUnits (roundMag n d) = u at *
  simp only [Nat.cast_mul, quotientError_cast, Nat.cast_pow, Nat.cast_ofNat] at herr
  have hscale : (u / 2 ^ 1074 - n / d : ℚ) = (u * d - n * 2 ^ 1074) / (2 ^ 1074 * d) := by field_simp
  have hpow : (2 ^ k / 2 ^ 54 * (2 ^ 1074 * d) * 2 : ℚ) = d * 2 ^ (k + 1021) := by
    rw [pow_add 2 k, show 1074 = 1021 + 53 from rfl, pow_add 2 1021]
    ring
  rw [hscale, abs_div, abs_of_pos (by positivity : (0 : ℚ) < 2 ^ 1074 * d), div_le_iff₀ (by positivity)]
  linarith

/-- A natural number of 53 bits is a binary64 number. -/
theorem exists_magUnits_eq {j : Nat} (h : j < 2 ^ 53) : ∃ m, m < 0x7FF <<< 52 ∧ magUnits m = j * 2 ^ 1074 := by
  obtain rfl | hj := Nat.eq_zero_or_pos j
  · exact ⟨0, by decide, by rw [Nat.zero_mul]; rfl⟩
  · have hlog : Nat.log 2 j < 53 := Nat.log_lt_of_lt_pow hj.ne' h
    obtain ⟨i, hi⟩ : ∃ i, 52 = Nat.log 2 j + i := Nat.exists_eq_add_of_le (by omega)
    have hlo : 2 ^ 52 ≤ j * 2 ^ i := by
      rw [hi, pow_add]
      exact Nat.mul_le_mul_right _ (Nat.pow_log_le_self 2 hj.ne')
    have hhi : j * 2 ^ i < 2 ^ 53 := by
      rw [show 53 = (Nat.log 2 j).succ + i by omega, pow_add]
      exact Nat.mul_lt_mul_of_pos_right (Nat.lt_pow_succ_log_self one_lt_two j) (by positivity)
    refine ⟨(1074 - i) * 2 ^ 52 + j * 2 ^ i, by omega, ?_⟩
    rw [magUnits_encode (.inr hlo) hhi.le, mul_assoc, ← pow_add, Nat.add_sub_cancel' (by omega)]

/-- A quotient that is a natural number of 53 bits is not moved. -/
theorem magUnits_roundMag_mul {j d : Nat} (hd : 0 < d) (hj : j < 2 ^ 53) :
    magUnits (roundMag (j * d) d) = j * 2 ^ 1074 := by
  obtain ⟨m, -, hm⟩ := exists_magUnits_eq hj
  obtain ⟨hs, hround⟩ := roundMag_of_finite (roundMag_lt_infinity (Nat.mul_lt_mul_of_pos_right hj hd))
  obtain ⟨hhi, hlo⟩ := droppedBits_bounds hs
  have hnear := (encode_roundQuotient_nearest hd hhi hlo m).1
  have hzero : quotientError (j * d * 2 ^ 1074) d (magUnits m) = 0 := by
    rw [hm, Nat.mul_right_comm, quotientError, sub_self, Int.natAbs_zero]
  rw [← hround, hzero, Nat.le_zero, quotientError, Int.natAbs_eq_zero, sub_eq_zero, Nat.cast_inj,
    Nat.mul_right_comm] at hnear
  exact Nat.eq_of_mul_eq_mul_right hd hnear

/-! The value of a number. -/

/-- The value of a finite number. -/
def F64.value (x : F64) : ℚ := x.units / 2 ^ 1074

theorem F64.value_lt_value {x y : F64} : x.value < y.value ↔ x.units < y.units := by
  rw [F64.value, F64.value, div_lt_div_iff_of_pos_right (by positivity), Int.cast_lt]

theorem flt_iff {x y : F64} : flt x y = true ↔ x.value < y.value := by
  rw [flt, decide_eq_true_iff, F64.value_lt_value]

/-- The sign of a number, from its sign bit. -/
def signOf (neg : Bool) : ℚ := bif neg then -1 else 1

@[simp] theorem signOf_false : signOf false = 1 := rfl

@[simp] theorem signOf_true : signOf true = -1 := rfl

theorem signOf_xor (a b : Bool) : signOf (a ^^ b) = signOf a * signOf b := by
  cases a <;> cases b <;> norm_num

theorem signOf_div (a b : Bool) : signOf a / signOf b = signOf (a ^^ b) := by
  cases a <;> cases b <;> norm_num

theorem F64.value_eq (x : F64) : x.value = signOf x.msb * (magUnits x.mag / 2 ^ 1074) := by
  rw [F64.value, F64.units]
  cases x.msb
  · rw [signOf_false, one_mul, cond_false, Int.cast_natCast]
  · rw [signOf_true, neg_one_mul, cond_true, Int.cast_neg, Int.cast_natCast, neg_div]

theorem F64.toNat_ofMag {neg : Bool} {m : Nat} (h : m < 2 ^ 63) :
    (F64.ofMag neg m).toNat = if neg then m + 2 ^ 63 else m := by
  rw [F64.ofMag, BitVec.toNat_ofNat, Nat.one_shiftLeft, cond_eq_ite]
  exact Nat.mod_eq_of_lt (by split <;> omega)

theorem F64.msb_ofMag {neg : Bool} {m : Nat} (h : m < 2 ^ 63) : (F64.ofMag neg m).msb = neg := by
  rw [BitVec.msb_eq_decide, F64.toNat_ofMag h]
  cases neg
  · exact decide_eq_false (not_le.mpr h)
  · exact decide_eq_true (Nat.le_add_left _ m)

theorem F64.mag_ofMag {neg : Bool} {m : Nat} (h : m < 2 ^ 63) : (F64.ofMag neg m).mag = m := by
  rw [F64.mag, F64.toNat_ofMag h, Nat.one_shiftLeft]
  split <;> omega

theorem F64.value_ofMag {neg : Bool} {m : Nat} (h : m < 2 ^ 63) :
    (F64.ofMag neg m).value = signOf neg * (magUnits m / 2 ^ 1074) := by
  rw [F64.value_eq, F64.msb_ofMag h, F64.mag_ofMag h]

theorem abs_signOf (neg : Bool) : |signOf neg| = 1 := by
  cases neg <;> norm_num

theorem F64.abs_value (x : F64) : |x.value| = magUnits x.mag / 2 ^ 1074 := by
  rw [F64.value_eq, abs_mul, abs_signOf, one_mul, abs_of_nonneg (by positivity)]

theorem roundMag_lt (n d : Nat) : roundMag n d < 2 ^ 63 :=
  (Nat.min_le_right _ _).trans_lt (by decide)

theorem F64.value_neg (x : F64) : x.neg.value = -x.value := by
  have hmag : x.mag < 2 ^ 63 := Nat.mod_lt _ (by decide)
  rw [F64.neg, F64.value_ofMag hmag, F64.value_eq]
  cases x.msb <;> simp

/-! The operations: exact where the result is a natural number, otherwise as near as the rounding. -/

/-- Distance of a rounded quotient below `2^k`, with its sign, to the exact one. -/
theorem value_round_error {neg : Bool} {n d k : Nat} (hk : k ≤ 53) (h : n < 2 ^ k * d) :
    |(F64.ofMag neg (roundMag n d)).value - signOf neg * (n / d)| ≤ 2 ^ k / 2 ^ 54 := by
  rw [F64.value_ofMag (roundMag_lt n d), ← mul_sub, abs_mul, abs_signOf, one_mul]
  exact roundMag_error hk h

theorem value_round_mul {neg : Bool} {j d : Nat} (hd : 0 < d) (hj : j < 2 ^ 53) :
    (F64.ofMag neg (roundMag (j * d) d)).value = signOf neg * j := by
  rw [F64.value_ofMag (roundMag_lt _ d), magUnits_roundMag_mul hd hj, Nat.cast_mul, Nat.cast_pow, Nat.cast_ofNat,
    mul_div_cancel_right₀ _ (by positivity)]

theorem value_ofNat {n : Nat} (h : n < 2 ^ 53) : (F64.ofNat n).value = n := by
  have hround := value_round_mul (neg := false) one_pos h
  rwa [mul_one, signOf_false, one_mul] at hround

theorem value_fmul_of_natural {x y : F64} {j : Nat} (hj : j < 2 ^ 53) (h : |x.value * y.value| = j) :
    (fmul x y).value = x.value * y.value := by
  have hprod : magUnits x.mag * magUnits y.mag = j * 1 <<< 2148 := by
    rw [abs_mul, F64.abs_value, F64.abs_value, div_mul_div_comm, ← pow_add, div_eq_iff (by positivity)] at h
    rw [Nat.one_shiftLeft]
    exact_mod_cast h
  rw [fmul, hprod, value_round_mul (Nat.one_shiftLeft 2148 ▸ Nat.two_pow_pos 2148) hj, signOf_xor, ← h, abs_mul,
    F64.abs_value, F64.abs_value, F64.value_eq x, F64.value_eq y, mul_mul_mul_comm]

theorem fdiv_error {x y : F64} {k : Nat} (hk : k ≤ 53) (h : |x.value| < 2 ^ k * |y.value|) :
    |(fdiv x y).value - x.value / y.value| ≤ 2 ^ k / 2 ^ 54 := by
  have hquot : x.value / y.value = signOf (x.msb ^^ y.msb) * (magUnits x.mag / magUnits y.mag) := by
    rw [F64.value_eq, F64.value_eq, mul_div_mul_comm, div_div_div_cancel_right₀ (by positivity), signOf_div]
  rw [F64.abs_value, F64.abs_value, ← mul_div_assoc, div_lt_div_iff_of_pos_right (by positivity)] at h
  rw [hquot]
  exact value_round_error hk (by exact_mod_cast h)

/-- The sum rounds its exact units, a sum of zero too. -/
theorem fadd_eq_round (x y : F64) :
    ∃ neg, fadd x y = F64.ofMag neg (roundMag (x.units + y.units).natAbs (1 <<< 1074)) ∧
      x.value + y.value = signOf neg * ((x.units + y.units).natAbs / (1 <<< 1074 : Nat)) := by
  have hsum : x.value + y.value = ((x.units + y.units : Int) : ℚ) / (1 <<< 1074 : Nat) := by
    rw [Int.cast_add, add_div, F64.value, F64.value, Nat.one_shiftLeft, Nat.cast_pow, Nat.cast_ofNat]
  rw [hsum]
  unfold fadd
  match x.units + y.units with
  | .ofNat 0 =>
    have hround : roundMag 0 (1 <<< 1074) = 0 := by decide
    exact ⟨x.msb && y.msb, congrArg (F64.ofMag _) hround.symm, by simp⟩
  | .ofNat (n + 1) => exact ⟨false, rfl, by rw [signOf_false, one_mul]; rfl⟩
  | .negSucc n =>
    exact ⟨true, rfl, by rw [signOf_true, neg_one_mul, ← neg_div, Int.natAbs_negSucc, Int.cast_negSucc]⟩

theorem fadd_error {x y : F64} {k : Nat} (hk : k ≤ 53) (h : |x.value + y.value| < 2 ^ k) :
    |(fadd x y).value - (x.value + y.value)| ≤ 2 ^ k / 2 ^ 54 := by
  obtain ⟨neg, hround, hsum⟩ := fadd_eq_round x y
  have hunit : 0 < 1 <<< 1074 := Nat.one_shiftLeft 1074 ▸ Nat.two_pow_pos 1074
  generalize 1 <<< 1074 = d at *
  rw [hsum, abs_mul, abs_signOf, one_mul, abs_of_nonneg (by positivity), div_lt_iff₀ (Nat.cast_pos.mpr hunit)] at h
  rw [hround, hsum]
  exact value_round_error hk (by exact_mod_cast h)

/-! The biased exponent. -/

theorem F64.exponent_toNat (x : F64) : (x.extractLsb' 52 11).toNat = x.mag / 2 ^ 52 := by
  rw [BitVec.extractLsb'_toNat, Nat.shiftRight_eq_div_pow, F64.mag, Nat.one_shiftLeft]
  omega

/-- A number of at least `2^-1022` is not encoded as zero or a subnormal. -/
theorem F64.exponent_ne_zero {x : F64} (h : 1 / 2 ^ 1022 ≤ |x.value|) : x.extractLsb' 52 11 ≠ 0 := by
  have hunits : magUnits (0 * 2 ^ 52 + 2 ^ 52) ≤ magUnits x.mag := by
    rw [magUnits_encode (.inl rfl) (by decide), pow_zero, mul_one]
    rw [F64.abs_value, div_le_div_iff₀ (by positivity) (by positivity), one_mul, show 1074 = 52 + 1022 from rfl,
      pow_add, mul_le_mul_iff_left₀ (by positivity)] at h
    exact_mod_cast h
  have hmag := magUnits_strictMono.le_iff_le.mp hunits
  intro hexp
  have hdiv : 0 = x.mag / 2 ^ 52 := (congrArg BitVec.toNat hexp).symm.trans x.exponent_toNat
  omega

/-- A number below `2^1024` is not encoded as infinity or NaN. -/
theorem F64.exponent_ne_max {x : F64} (h : |x.value| < 2 ^ 1024) : x.extractLsb' 52 11 ≠ 2047 := by
  have hunits : magUnits x.mag < magUnits (2046 * 2 ^ 52 + 2 ^ 52) := by
    rw [magUnits_encode (.inr le_rfl) (by decide), ← pow_add]
    rw [F64.abs_value, div_lt_iff₀ (by positivity), ← pow_add] at h
    exact_mod_cast h
  have hmag := magUnits_strictMono.lt_iff_lt.mp hunits
  intro hexp
  have hdiv : 2047 = x.mag / 2 ^ 52 := (congrArg BitVec.toNat hexp).symm.trans x.exponent_toNat
  omega

end Sys2Proof.Machine
end

section
/-! The conversion (R170, R171): TempOf and RhLin lie so near to the line they compute (`linearOf_error`) that the order
of their values is the order of the line's. -/

namespace Sys2Proof.Machine

/-! The line that the conversion computes. -/

/-- `-b + a * n / 65535` as the conversion computes it. -/
def linearOf (a b n : Nat) : F64 :=
  fadd (F64.ofNat b).neg (fdiv (fmul (F64.ofNat a) (F64.ofNat n)) (F64.ofNat 65535))

theorem tempOf_eq_linearOf (t : Half) : tempOf t = linearOf 175 45 t.toNat := rfl

theorem rhLin_eq_linearOf (h : Half) : rhLin h = linearOf 125 6 h.toNat := rfl

/-- The product is exact; the quotient and the sum, both below `2^8`, are rounded by `2^-46` each at most. -/
theorem linearOf_error {a b n : Nat} (ha : a ≤ 255) (hb : b ≤ 255) (hn : n ≤ 65535) :
    |(linearOf a b n).value - (a * n / 65535 - b)| ≤ 1 / 2 ^ 45 := by
  have hprod : a * n ≤ 255 * 65535 := Nat.mul_le_mul ha hn
  have hprodQ : (a * n : ℚ) ≤ 255 * 65535 := by exact_mod_cast hprod
  have hbQ : (b : ℚ) ≤ 255 := by exact_mod_cast hb
  have hpos : (0 : ℚ) ≤ a * n := by positivity
  have hbpos : (0 : ℚ) ≤ b := by positivity
  have hva : (F64.ofNat a).value = a := value_ofNat (by omega)
  have hvn : (F64.ofNat n).value = n := value_ofNat (by omega)
  have hvd : (F64.ofNat 65535).value = 65535 := value_ofNat (by decide)
  have hvb : (F64.ofNat b).neg.value = -b := by rw [F64.value_neg, value_ofNat (by omega)]
  have hmul : (fmul (F64.ofNat a) (F64.ofNat n)).value = a * n := by
    rw [value_fmul_of_natural (j := a * n) (by omega), hva, hvn]
    rw [hva, hvn, abs_of_nonneg hpos, Nat.cast_mul]
  have hdiv := fdiv_error (x := fmul (F64.ofNat a) (F64.ofNat n)) (y := F64.ofNat 65535) (k := 8) (by decide)
    (by rw [hmul, hvd, abs_of_nonneg hpos, abs_of_pos (by norm_num)]; linarith)
  rw [hmul, hvd, abs_le] at hdiv
  have hadd := fadd_error (x := (F64.ofNat b).neg)
    (y := fdiv (fmul (F64.ofNat a) (F64.ofNat n)) (F64.ofNat 65535)) (k := 8) (by decide)
    (by rw [hvb, abs_lt]; constructor <;> linarith)
  rw [hvb, abs_le] at hadd
  rw [linearOf, abs_le]
  constructor <;> linarith

theorem tempOf_error (t : Half) : |(tempOf t).value - (175 * t.toNat / 65535 - 45)| ≤ 1 / 2 ^ 45 :=
  tempOf_eq_linearOf t ▸ linearOf_error (a := 175) (b := 45) (by decide) (by decide) (Nat.le_of_lt_succ t.isLt)

theorem rhLin_error (h : Half) : |(rhLin h).value - (125 * h.toNat / 65535 - 6)| ≤ 1 / 2 ^ 45 :=
  rhLin_eq_linearOf h ▸ linearOf_error (a := 125) (b := 6) (by decide) (by decide) (Nat.le_of_lt_succ h.isLt)

/-! Humidity: the line crosses 0 and 100 between raw values, farther from each than the error. -/

theorem flt_rhLin_zero_iff (h : Half) : flt (rhLin h) (F64.ofNat 0) = true ↔ h.toNat ≤ 3145 := by
  have hzero : (F64.ofNat 0).value = 0 := value_ofNat (by decide)
  obtain ⟨hlo, hhi⟩ := abs_le.mp (rhLin_error h)
  rw [flt_iff, hzero]
  constructor
  · refine fun hlt => not_lt.mp fun hgt => ?_
    have hraw : (3146 : ℚ) ≤ h.toNat := by exact_mod_cast hgt
    linarith
  · intro hle
    have hraw : (h.toNat : ℚ) ≤ 3145 := by exact_mod_cast hle
    linarith

theorem flt_hundred_rhLin_iff (h : Half) : flt (F64.ofNat 100) (rhLin h) = true ↔ 55574 ≤ h.toNat := by
  have hhundred : (F64.ofNat 100).value = 100 := value_ofNat (by decide)
  obtain ⟨hlo, hhi⟩ := abs_le.mp (rhLin_error h)
  rw [flt_iff, hhundred]
  constructor
  · refine fun hlt => not_lt.mp fun hgt => ?_
    have hraw : (h.toNat : ℚ) ≤ 55573 := by exact_mod_cast Nat.le_of_lt_succ hgt
    linarith
  · intro hge
    have hraw : (55574 : ℚ) ≤ h.toNat := by exact_mod_cast hge
    linarith

/-- Settles O48: the clamp's two comparisons are the thresholds (`flt_rhLin_zero_iff`, `flt_hundred_rhLin_iff`), which
exclude each other. -/
theorem humidityClampThresholds : Obligations.HumidityClampThresholds := by
  unfold Obligations.HumidityClampThresholds
  intro h
  have hzero : F64.ofNat 0 = 0x0000000000000000 := by decide
  have hhundred : F64.ofNat 100 = 0x4059000000000000 := by decide
  have hlow := flt_rhLin_zero_iff h
  have hhigh := flt_hundred_rhLin_iff h
  refine ⟨hlow, hhigh, fun hle => ?_, fun hge => ?_, fun hgt hlt => ?_⟩
  · rw [rhOf, if_pos (hlow.mpr hle), hzero]
  · rw [rhOf, if_neg (by rw [hlow]; omega), if_pos (hhigh.mpr hge), hhundred]
  · rw [rhOf, if_neg (by rw [hlow]; omega), if_neg (by rw [hhigh]; omega)]

/-! Temperature: one raw value is a step of more than twice the error, and the line's zero lies between raw values. -/

theorem tempOf_units_lt {t u : Half} (h : t.toNat < u.toNat) : (tempOf t).units < (tempOf u).units := by
  obtain ⟨-, ht⟩ := abs_le.mp (tempOf_error t)
  obtain ⟨hu, -⟩ := abs_le.mp (tempOf_error u)
  have hstep : (t.toNat + 1 : ℚ) ≤ u.toNat := by exact_mod_cast h
  rw [← F64.value_lt_value]
  linarith

theorem tempOf_units_le {t u : Half} (h : t.toNat ≤ u.toNat) : (tempOf t).units ≤ (tempOf u).units := by
  obtain heq | hlt := h.eq_or_lt
  · rw [BitVec.eq_of_toNat_eq heq]
  · exact (tempOf_units_lt hlt).le

theorem tempOf_min : tempOf 0x0000 = 0xC046800000000000 := by decide

theorem tempOf_max : tempOf 0xFFFF = 0x4060400000000000 := by decide

theorem tempOf_units_bounds (t : Half) :
    -(45 * (1 <<< 1074 : Nat) : Int) ≤ (tempOf t).units ∧ (tempOf t).units ≤ (130 * (1 <<< 1074 : Nat) : Int) := by
  have hmin : (tempOf 0x0000).units = -(45 * (1 <<< 1074 : Nat) : Int) := by rw [tempOf_min]; decide
  have hmax : (tempOf 0xFFFF).units = (130 * (1 <<< 1074 : Nat) : Int) := by rw [tempOf_max]; decide
  rw [← hmin, ← hmax]
  exact ⟨tempOf_units_le (Nat.zero_le _), tempOf_units_le (Nat.le_of_lt_succ t.isLt)⟩

/-- The line crosses 0 between the raw values 16851 and 16852. -/
theorem abs_tempOf_value_bounds (t : Half) : 1 / 2 ^ 12 ≤ |(tempOf t).value| ∧ |(tempOf t).value| < 2 ^ 8 := by
  obtain ⟨hlo, hhi⟩ := abs_le.mp (tempOf_error t)
  have hmin : (0 : ℚ) ≤ t.toNat := Nat.cast_nonneg _
  have hmax : (t.toNat : ℚ) ≤ 65535 := by exact_mod_cast Nat.le_of_lt_succ t.isLt
  rw [le_abs, abs_lt]
  refine ⟨?_, by linarith, by linarith⟩
  obtain hle | hge : t.toNat ≤ 16851 ∨ 16852 ≤ t.toNat := by omega
  · have hraw : (t.toNat : ℚ) ≤ 16851 := by exact_mod_cast hle
    exact .inr (by linarith)
  · have hraw : (16852 : ℚ) ≤ t.toNat := by exact_mod_cast hge
    exact .inl (by linarith)

/-- Settles O49: strictly increasing (`tempOf_units_lt`), so within its endpoints; and normal, since its value is
neither small nor large (`abs_tempOf_value_bounds`). -/
theorem temperatureIsMonotoneAndFinite : Obligations.TemperatureIsMonotoneAndFinite := by
  unfold Obligations.TemperatureIsMonotoneAndFinite
  refine ⟨fun t u => tempOf_units_lt, ⟨tempOf_min, tempOf_max⟩, fun t => ?_⟩
  obtain ⟨hge, hle⟩ := tempOf_units_bounds t
  obtain ⟨hlo, hhi⟩ := abs_tempOf_value_bounds t
  have htiny : (1 / 2 ^ 1022 : ℚ) ≤ 1 / 2 ^ 12 := one_div_pow_le_one_div_pow_of_le one_le_two (by decide)
  have hhuge : (2 ^ 8 : ℚ) ≤ 2 ^ 1024 := pow_le_pow_right₀ one_le_two (by decide)
  exact ⟨hge, hle, F64.exponent_ne_zero (htiny.trans hlo), F64.exponent_ne_max (hhi.trans_le hhuge)⟩

/-- Settles O47: the humidity at both ends is the clamp of O48, and the other values run the conversion. -/
theorem conversionEndpoints : Obligations.ConversionEndpoints := by
  unfold Obligations.ConversionEndpoints
  obtain ⟨-, -, hlow, -, -⟩ := humidityClampThresholds 0x0000
  obtain ⟨-, -, -, hhigh, -⟩ := humidityClampThresholds 0xFFFF
  exact ⟨tempOf_min, tempOf_max, by decide, by decide, hlow (by decide), hhigh (by decide), by decide, by decide⟩

end Sys2Proof.Machine
end

section
/-! Errors and stops (60_exceptions.md): no step from a state that meets the invariant stops (R189), SET_MODE rejects a
code outside the table (R181), and an engine with no answer waits (R196). -/

namespace Sys2Proof.Machine

variable {s : State}

/-! The one fault, a valid frame for a RESET, and how the invariant excludes it. -/

/-- Every instruction has a meaning, and none of them faults. -/
theorem exec_answers (i : Instr) (s : State) : ∃ t, exec i s = .next t := by
  cases i <;> exact ⟨_, rfl⟩

/-- An operation that reads takes every answer to its read (R146). -/
theorem takeReadAnswer_answers (a : ReadAnswer) (ho : s.cur.op ≠ .reset) : ∃ t, takeReadAnswer a s = .next t := by
  cases a with
  | transportError info => exact ⟨_, rfl⟩
  | ok b =>
    cases hv : frameValid b with
    | false => exact ⟨_, takeReadAnswer_corrupt hv⟩
    | true =>
      cases hop : s.cur.op with
      | reset => exact absurd hop ho
      | readSerial => exact ⟨_, takeReadAnswer_serial hv hop⟩
      | readMeasurement => exact ⟨_, takeReadAnswer_measurement hv hop⟩

/-- Of the inputs that carry no instruction, only the answer to a read could stop the machine. -/
theorem takeInput_answers (inp : Input) (ho : s.pend = .read → s.cur.op ≠ .reset) :
    ∃ t, takeInput inp s = .next t := by
  cases inp with
  | host a => cases a <;> exact ⟨_, rfl⟩
  | writeAnswer a => exact ⟨_, rfl⟩
  | readAnswer a =>
    rw [takeInput]
    split_ifs with hp
    · exact takeReadAnswer_answers a (ho hp)
    · exact ⟨_, rfl⟩
  | tick => exact ⟨_, rfl⟩
  | blockReset => exact ⟨_, rfl⟩

/-- Settles O43: an instruction always answers (`exec_answers`), and so does an input without one, since RESET makes no
read (`State.Inv.op_of_pend_read`). -/
theorem invariantStatesNeverStop : Obligations.InvariantStatesNeverStop := by
  unfold Obligations.InvariantStatesNeverStop
  intro s hinv
  cases hd : decode s.transfers with
  | ok i =>
    rw [step_of_decode hd]
    exact exec_answers i _
  | error e =>
    rw [step_of_decode_error hd, otherStep]
    cases s.inputs with
    | nil => exact ⟨s, rfl⟩
    | cons inp rest => exact takeInput_answers inp hinv.op_of_pend_read

/-! The rejected mode code. -/

/-- Settles O17: the lookup finds no row (`lookupMode_eq_none`), so SET_MODE is an error at acceptance. -/
theorem setModeRejectsAnInvalidCode : Obligations.SetModeRejectsAnInvalidCode := by
  unfold Obligations.SetModeRejectsAnInvalidCode
  intro s code hcode hbusy hphase hpend
  have hset : setMode code s = raiseError .invalidArgument (accept 0x2 s) :=
    setMode_invalid (lookupMode_eq_none.mpr hcode)
  calc exec (.setMode code) s = .next (whileIdle (setMode code) s) := rfl
    _ = .next (raiseError .invalidArgument (accept 0x2 s)) := by rw [whileIdle_idle hbusy, hset]
    _ = _ := congrArg Host.Outcome.next (raiseError_accept_idle _ _ hbusy hphase hpend)

/-! The command frame that waits for its answer. -/

theorem exec_frame_unanswered {p : Instr × Byte × Nat} (hmem : p ∈ frameInstrs)
    (hi : ∀ a rest, s.inputs ≠ .writeAnswer a :: rest) : exec p.1 s = .next s := by
  have hframe : decodeFrame p.2.1 = some p.1 := decodeFrame_eq_some_iff.mpr ⟨p.2.2, hmem⟩
  rw [exec_decodeFrame hframe, busFrame_unanswered hi]

/-- Settles O26: `exec_frame_unanswered` for the frames, `step_nil` for the step without an input. -/
theorem unansweredFrameWaits : Obligations.UnansweredFrameWaits := by
  unfold Obligations.UnansweredFrameWaits
  exact ⟨fun p hmem s hi => exec_frame_unanswered hmem hi, fun s hi => step_nil hi⟩

end Sys2Proof.Machine
end

section
/-! Block reset, late answers and the announced result (70_reset_and_hazards.md). -/

namespace Sys2Proof.Machine

/-- Settles O2: the step is `blockReset` with the input taken (`step_blockReset`), which gives the block the values of
`State.reset` and leaves the model's own fields. -/
theorem blockResetRestoresTheResetValues : Obligations.BlockResetRestoresTheResetValues := by
  unfold Obligations.BlockResetRestoresTheResetValues
  intro s rest hi
  exact ⟨_, step_blockReset hi, rfl, rfl, rfl, rfl, rfl, rfl, rfl, rfl, rfl⟩

/-- Settles O30: an answer is taken from the inputs whatever PEND is (`step_writeAnswer`, `step_readAnswer`), and does
nothing more where PEND does not name its request. -/
theorem lateAnswersAreDiscarded : Obligations.LateAnswersAreDiscarded := by
  unfold Obligations.LateAnswersAreDiscarded
  intro s rest
  constructor
  · intro a hp hi
    rw [step_writeAnswer hi, if_neg hp]
    rfl
  · intro a hp hi
    rw [step_readAnswer hi, if_neg hp]
    rfl

/-- Settles O40: BUSY, VALID, LAST_OP and the mode have no writers but command words and block reset that could act
here (`FlagEvent`, O37), and the results none but block reset and the answer to a read (`results_of_step`), which is
not outstanding while BUSY = 0. -/
theorem resultStaysUntilTheNextCommand : Obligations.ResultStaysUntilTheNextCommand := by
  unfold Obligations.ResultStaysUntilTheNextCommand
  rintro s t op hinv ⟨hbusy, hvalid, hop⟩ h hcmd hreset
  have e := flagEvent_of_step h
  refine ⟨⟨?busy, ?valid, ?lastOp⟩, ?results, ?mode⟩
  case busy =>
    refine Bool.eq_false_iff.mpr fun hrises => ?_
    obtain ⟨w, rest, hi, _⟩ := e.busy_rises hbusy hrises
    exact hcmd w rest hi
  case valid =>
    refine Bool.of_not_eq_false fun hfalls => ?_
    obtain ⟨_, w, rest, hi⟩ | ⟨rest, hi⟩ := e.valid_falls hinv hvalid hfalls
    · exact hcmd w rest hi
    · exact hreset rest hi
  case lastOp =>
    rw [← hop]
    by_contra hne
    obtain ⟨rest, hi⟩ | ⟨_, w, rest, hi, _⟩ := e.lastOp_changes hne
    · exact hreset rest hi
    · exact hcmd w rest hi
  case results =>
    obtain hsame | ⟨rest, hi⟩ | ⟨_, _, _, hpend, _⟩ := results_of_step h
    · exact hsame
    · exact absurd hi (hreset rest)
    · rw [hinv.pend_of_not_busy hbusy] at hpend
      nomatch hpend
  case mode =>
    by_contra hne
    obtain ⟨rest, hi⟩ | ⟨w, rest, hi, _⟩ := modeChangesOnlyBySetMode s t h hne
    · exact hreset rest hi
    · exact hcmd w rest hi

end Sys2Proof.Machine
end
